-- ==== Sys2Proof/Word.lean ====
section
/-! DEFINITION. The word types of the LEDCube CORE (10_state.md R20, R25, R26; 30_encoding.md R70).
Bit 0 is the least significant bit of every word and all words are unsigned (00_scope.md R8). -/

namespace Sys2Proof

/-- A 64-bit state word, one bit per LED, 1 = lit (R20, R22). -/
abbrev LedState := BitVec 64

/-- A level slice: bit c is anode column c (R31, R51). -/
abbrev Slice := BitVec 16

/-- The 12-bit operation word (R70). -/
abbrev OpWord := BitVec 12

end Sys2Proof
end

