-- ==== Sys2Proof/Config.lean ====
section
/-! DEFINITION. What is fixed when the hardware is built (00_scope.md R6, R7), and what the outside world presents on
the input ports (10_state.md R25, R26), with the free inputs of the steps that no schedule covers. -/

namespace Sys2Proof

/-- LEVELS, the cube's edge length, fixed at 4 (R6, R7; D1). -/
def Config.levels : Nat := 4

/-- COLUMNS = LEVELS² (R6). -/
def Config.columns : Nat := Config.levels * Config.levels

/-- W = LEVELS × COLUMNS, the width of the state word (R6). -/
def Config.stateWidth : Nat := Config.levels * Config.columns

/-- SHIFT_ORDER (R6, R184; D15): which column leaves first on SER. -/
inductive ShiftOrder where
  /-- Column 15 first: this hardware's default. -/
  | msbFirst
  /-- Column 0 first. -/
  | lsbFirst
deriving DecidableEq, Repr, Inhabited

/-- The build-time parameters. No register holds them and nothing writes them (10_state.md R38). -/
structure Build where
  shiftOrder : ShiftOrder
deriving DecidableEq, Repr, Inhabited

/-- This hardware's default build (R6). -/
def Build.default : Build := { shiftOrder := .msbFirst }

/-- What the outside presents on the input ports during one step (R25, R26). -/
structure PortInputs where
  /-- `opw`, the operation word. -/
  opw : OpWord
  /-- `s_in`, the LedState operand. -/
  sIn : LedState
  /-- A rising edge of `clk` ends this presentation; without one no register changes (R174, R252). Log 7. -/
  clk : Bool
  /-- `rst`, synchronous, active high. -/
  rst : Bool
  /-- `tick`, one event for each edge at which it is 1 (R176). -/
  tick : Bool
  /-- `cur_we`. -/
  curWe : Bool
  /-- `cur_d`. -/
  curD : LedState
  /-- `rst`, `tick`, `cur_we` and, where it is written, `cur_d` are stable around the edge (R267). Log 8. -/
  stable : Bool
deriving DecidableEq, Repr, Inhabited

/-- All inputs low, no clock edge. -/
def PortInputs.idle : PortInputs :=
  { opw := 0, sIn := 0, clk := false, rst := false, tick := false, curWe := false, curD := 0, stable := true }

/-- FREE VALUE (Log 2): what the outside presents when the schedule is used up. No body, so nothing can be proved of it. -/
opaque Config.freeInputs : Nat → PortInputs

end Sys2Proof
end

