-- ==== Sys2Proof/Syntax.lean ====
section
/-! DEFINITION. The fifteen operations of spec/opcode_table.json (30_encoding.md R71) and the axes (R74).
Operands are natural numbers; a value outside its range is ill formed as syntax (WellFormed.lean) and is masked by the
meanings (R80; Log 9). -/

namespace Sys2Proof

/-- The axis names (00_scope.md R12). -/
inductive Axis where
  | x | y | z
deriving DecidableEq, Repr

/-- One constructor per row of the opcode table. -/
inductive Instr where
  /-- BITINDEX x, y, z (R102). -/
  | bitindex (x y z : Nat)
  /-- PIXMASK x, y, z (R104). -/
  | pixmask (x y z : Nat)
  /-- LEVELMASK l (R106). -/
  | levelmask (l : Nat)
  /-- COLUMNMASK c (R108). -/
  | columnmask (c : Nat)
  /-- SLICEMASK.X k (R116). -/
  | slicemaskX (k : Nat)
  /-- SLICEMASK.Y k (R118). -/
  | slicemaskY (k : Nat)
  /-- SLICEMASK.Z k (R120). -/
  | slicemaskZ (k : Nat)
  /-- SHIFT.X (R142). -/
  | shiftX
  /-- SHIFT.Y (R143). -/
  | shiftY
  /-- SHIFT.Z (R144). -/
  | shiftZ
  /-- UNSHIFT.X (R145). -/
  | unshiftX
  /-- UNSHIFT.Y (R146). -/
  | unshiftY
  /-- UNSHIFT.Z (R147). -/
  | unshiftZ
  /-- LVLSLICE l (R124). -/
  | lvlslice (l : Nat)
  /-- STATEMASK (R128). -/
  | statemask
deriving DecidableEq, Repr

end Sys2Proof
end

