-- ==== Sys2Proof/WellFormed.lean ====
section
/-! DEFINITION. Which instructions can be written as an operation word: each operand fits its field
(30_encoding.md R72, R73, R75, R76, R80). -/

namespace Sys2Proof

/-- A coordinate or level: 0..3 (R72, R73, R76). -/
abbrev coordOk (v : Nat) : Bool := decide (v < 4)

/-- An anode column: 0..15 (R75). -/
abbrev columnOk (c : Nat) : Bool := decide (c < 16)

/-- Every operand is in the range its field can hold. -/
def Instr.wf : Instr → Bool
  | .bitindex x y z => coordOk x && coordOk y && coordOk z
  | .pixmask x y z => coordOk x && coordOk y && coordOk z
  | .levelmask l => coordOk l
  | .columnmask c => columnOk c
  | .slicemaskX k => coordOk k
  | .slicemaskY k => coordOk k
  | .slicemaskZ k => coordOk k
  | .shiftX => true
  | .shiftY => true
  | .shiftZ => true
  | .unshiftX => true
  | .unshiftY => true
  | .unshiftZ => true
  | .lvlslice l => coordOk l
  | .statemask => true

end Sys2Proof
end

