-- ==== Sys2Proof/Decode.lean ====
section
/-! DEFINITION. The operation word's fields (30_encoding.md R70), the total decoder (R81) with a name for each kind of
illegal word (R85), the encoder written from the same encodings (R71), and the assembler syntax (R87). -/

namespace Sys2Proof

/-! ## Fields -/

/-- OP = opw[11:8] (R70). -/
def opField (w : OpWord) : BitVec 4 := w.extractLsb' 8 4

/-- AX = opw[7:6] (R70). -/
def axField (w : OpWord) : BitVec 2 := w.extractLsb' 6 2

/-- ARG = opw[5:0] (R70). -/
def argField (w : OpWord) : BitVec 6 := w.extractLsb' 0 6

/-- ARG[5:4]: coordinate x (R72). -/
def argX (w : OpWord) : Nat := (w.extractLsb' 4 2).toNat

/-- ARG[3:2]: coordinate y (R72). -/
def argY (w : OpWord) : Nat := (w.extractLsb' 2 2).toNat

/-- ARG[1:0]: coordinate z, level l or slice coordinate k (R72, R73, R76). -/
def argLow (w : OpWord) : Nat := (w.extractLsb' 0 2).toNat

/-- ARG[3:0]: column c (R75). -/
def argColumn (w : OpWord) : Nat := (w.extractLsb' 0 4).toNat

/-- The axis codes (R74); 0b11 is reserved. -/
def decodeAxis (ax : BitVec 2) : Option Axis :=
  match ax.toNat with
  | 0 => some .x
  | 1 => some .y
  | 2 => some .z
  | _ => none

/-- The code of an axis (R74). -/
def Axis.code : Axis → BitVec 2
  | .x => 0b00#2
  | .y => 0b01#2
  | .z => 0b10#2

/-! ## Decoding -/

/-- The kinds of illegal word, one for each line of R85's list. -/
inductive Illegal where
  /-- OP 0x9 to 0xF. -/
  | reservedOp
  /-- AX = 0b11 in OP 0x4, 0x5 and 0x6. -/
  | reservedAxis
  /-- AX ≠ 0b00 in the other operations. -/
  | axisNotZero
  /-- A non-zero "must be 0" ARG bit. -/
  | argNotZero
deriving DecidableEq, Repr

/-- What a word decodes to (R81): one row of the table, or ILLEGAL. -/
inductive Decoded where
  | legal (i : Instr)
  | illegal (why : Illegal)
deriving DecidableEq, Repr

/-- The word of an operation that has no axis: AX must be 0b00, and the bits of ARG above its operand 0. -/
def decodePlain (w : OpWord) (argOk : Bool) (i : Instr) : Decoded :=
  if axField w ≠ 0 then .illegal .axisNotZero
  else if argOk then .legal i
  else .illegal .argNotZero

/-- The word of an operation with an axis: AX must not be 0b11. -/
def decodeWithAxis (w : OpWord) (argOk : Bool) (i : Axis → Instr) : Decoded :=
  match decodeAxis (axField w) with
  | none => .illegal .reservedAxis
  | some a => if argOk then .legal (i a) else .illegal .argNotZero

/-- SLICEMASK by axis. -/
def slicemask (k : Nat) : Axis → Instr
  | .x => .slicemaskX k
  | .y => .slicemaskY k
  | .z => .slicemaskZ k

/-- SHIFT by axis. -/
def shift : Axis → Instr
  | .x => .shiftX
  | .y => .shiftY
  | .z => .shiftZ

/-- UNSHIFT by axis. -/
def unshift : Axis → Instr
  | .x => .unshiftX
  | .y => .unshiftY
  | .z => .unshiftZ

/-- R81, total on all 4096 words. -/
def decode (w : OpWord) : Decoded :=
  let arg52Zero : Bool := w.extractLsb' 2 4 == 0#4
  let arg54Zero : Bool := w.extractLsb' 4 2 == 0#2
  let argZero : Bool := argField w == 0#6
  match (opField w).toNat with
  | 0x0 => decodePlain w true (.bitindex (argX w) (argY w) (argLow w))
  | 0x1 => decodePlain w true (.pixmask (argX w) (argY w) (argLow w))
  | 0x2 => decodePlain w arg52Zero (.levelmask (argLow w))
  | 0x3 => decodePlain w arg54Zero (.columnmask (argColumn w))
  | 0x4 => decodeWithAxis w arg52Zero (slicemask (argLow w))
  | 0x5 => decodeWithAxis w argZero shift
  | 0x6 => decodeWithAxis w argZero unshift
  | 0x7 => decodePlain w arg52Zero (.lvlslice (argLow w))
  | 0x8 => decodePlain w argZero .statemask
  | _ => .illegal .reservedOp

/-- The instruction a word decodes to, if any. -/
def Decoded.instr? : Decoded → Option Instr
  | .legal i => some i
  | .illegal _ => none

/-- Is the word a legal encoding (R81)? -/
def legal (w : OpWord) : Bool :=
  (decode w).instr?.isSome

/-- The instruction of a table word whose bits are `w`, `nbits` of them. An operation word has exactly 12 bits (R70), so
a value with a bit at 12 or above is no operation word (Log 15). -/
def decodeTableWord (nbits w : Nat) : Option Instr :=
  let v := w % 2 ^ nbits
  if v < 4096 then (decode (BitVec.ofNat 12 v)).instr? else none

/-! ## Encoding -/

/-- {OP, AX, ARG} (R70). -/
def opWord (op : BitVec 4) (ax : BitVec 2) (arg : BitVec 6) : OpWord := op ++ ax ++ arg

/-- x[5:4] y[3:2] z[1:0] (R72). -/
def argCoords (x y z : Nat) : BitVec 6 := BitVec.ofNat 2 x ++ BitVec.ofNat 2 y ++ BitVec.ofNat 2 z

/-- 0000 l[1:0] (R73, R76). -/
def argTwo (l : Nat) : BitVec 6 := 0#4 ++ BitVec.ofNat 2 l

/-- 00 c[3:0] (R75). -/
def argFour (c : Nat) : BitVec 6 := 0#2 ++ BitVec.ofNat 4 c

/-- The word of an instruction, from R71's map. -/
def encode : Instr → OpWord
  | .bitindex x y z => opWord 0x0 0 (argCoords x y z)
  | .pixmask x y z => opWord 0x1 0 (argCoords x y z)
  | .levelmask l => opWord 0x2 0 (argTwo l)
  | .columnmask c => opWord 0x3 0 (argFour c)
  | .slicemaskX k => opWord 0x4 Axis.x.code (argTwo k)
  | .slicemaskY k => opWord 0x4 Axis.y.code (argTwo k)
  | .slicemaskZ k => opWord 0x4 Axis.z.code (argTwo k)
  | .shiftX => opWord 0x5 Axis.x.code 0
  | .shiftY => opWord 0x5 Axis.y.code 0
  | .shiftZ => opWord 0x5 Axis.z.code 0
  | .unshiftX => opWord 0x6 Axis.x.code 0
  | .unshiftY => opWord 0x6 Axis.y.code 0
  | .unshiftZ => opWord 0x6 Axis.z.code 0
  | .lvlslice l => opWord 0x7 0 (argTwo l)
  | .statemask => opWord 0x8 0 0

/-! ## The opcode table -/

/-- The row of spec/opcode_table.json an instruction stands for. -/
def Instr.mnemonic : Instr → String
  | .bitindex _ _ _ => "BITINDEX"
  | .pixmask _ _ _ => "PIXMASK"
  | .levelmask _ => "LEVELMASK"
  | .columnmask _ => "COLUMNMASK"
  | .slicemaskX _ => "SLICEMASK.X"
  | .slicemaskY _ => "SLICEMASK.Y"
  | .slicemaskZ _ => "SLICEMASK.Z"
  | .shiftX => "SHIFT.X"
  | .shiftY => "SHIFT.Y"
  | .shiftZ => "SHIFT.Z"
  | .unshiftX => "UNSHIFT.X"
  | .unshiftY => "UNSHIFT.Y"
  | .unshiftZ => "UNSHIFT.Z"
  | .lvlslice _ => "LVLSLICE"
  | .statemask => "STATEMASK"

/-- The table's rows as (mnemonic, match, mask), from spec/opcode_table.json. -/
def opcodeTable : List (String × OpWord × OpWord) :=
  [("BITINDEX", 0x000, 0xFC0), ("PIXMASK", 0x100, 0xFC0), ("LEVELMASK", 0x200, 0xFFC),
   ("COLUMNMASK", 0x300, 0xFF0), ("SLICEMASK.X", 0x400, 0xFFC), ("SLICEMASK.Y", 0x440, 0xFFC),
   ("SLICEMASK.Z", 0x480, 0xFFC), ("SHIFT.X", 0x500, 0xFFF), ("SHIFT.Y", 0x540, 0xFFF),
   ("SHIFT.Z", 0x580, 0xFFF), ("UNSHIFT.X", 0x600, 0xFFF), ("UNSHIFT.Y", 0x640, 0xFFF),
   ("UNSHIFT.Z", 0x680, 0xFFF), ("LVLSLICE", 0x700, 0xFFC), ("STATEMASK", 0x800, 0xFFF)]

/-- The mnemonics of the rows that a word matches. -/
def rowsMatching (w : OpWord) : List String :=
  (opcodeTable.filter fun r => w &&& r.2.2 == r.2.1).map (·.1)

/-! ## Assembler syntax (R87) -/

/-- The operands of an instruction, in written order. -/
def Instr.operands : Instr → List Nat
  | .bitindex x y z => [x, y, z]
  | .pixmask x y z => [x, y, z]
  | .levelmask l => [l]
  | .columnmask c => [c]
  | .slicemaskX k => [k]
  | .slicemaskY k => [k]
  | .slicemaskZ k => [k]
  | .shiftX => []
  | .shiftY => []
  | .shiftZ => []
  | .unshiftX => []
  | .unshiftY => []
  | .unshiftZ => []
  | .lvlslice l => [l]
  | .statemask => []

/-- The mnemonic, then the operands as decimal numbers separated by commas. -/
def Instr.asm (i : Instr) : String :=
  match i.operands with
  | [] => i.mnemonic
  | a :: rest => rest.foldl (fun line b => line ++ ", " ++ toString b) (i.mnemonic ++ " " ++ toString a)

/-- Every instruction that an operation word holds, in the order of the words. -/
def allInstrs : List Instr :=
  (List.range 4096).filterMap fun w => (decode (BitVec.ofNat 12 w)).instr?

/-- The instruction an assembler line stands for: the one whose written form it is (R87). -/
def assemble (line : String) : Option Instr := allInstrs.find? fun i => i.asm == line

end Sys2Proof
end

