-- ==== Sys2Proof/Machine/State.lean ====
section
/-! DEFINITION. The state of the LEDCube CORE as plain data: the refresh driver's registers (10_state.md R27 to R35), the
ports (R25, R26), the build (R38), the reference chain (42_refresh_driver.md R200) and what the outside will present.
There is no program counter, memory, mode or saved register to hold (R36, R50, R230, R242; Log 14). -/

namespace Sys2Proof.Machine

/-- Why a step stops with a fault: never. "The CORE has no exception, trap or interrupt mechanism" (60_exceptions.md
R230); its two conditions are status outputs (R231), named by Safety.Condition. -/
inductive Fault where
deriving DecidableEq, Repr

/-- Why a step is refused. -/
inductive Refusal where
  /-- Raised by an arm of exec for an instruction with no meaning yet (none is left). Safe: the model stops. -/
  | notModelled (mnemonic : String)
  /-- Raised by step when the driver's inputs are not stable around a rising edge of clk: outside the model's domain
  (70_reset_and_hazards.md R267; 93_implementation_defined.md row 14; Log 8). Safe: the model stops. -/
  | unsynchronisedInputs
deriving DecidableEq, Repr

/-- `st`, the driver state (R32). -/
inductive DriverSt where
  | blank | shift | latch | enable
deriving DecidableEq, Repr

/-- The codes of R32. -/
def DriverSt.code : DriverSt → BitVec 2
  | .blank => 0b00#2
  | .shift => 0b01#2
  | .latch => 0b10#2
  | .enable => 0b11#2

/-- The registers of the refresh driver (R28 to R35), output pins included (each pin shows its register, R35). -/
structure Driver where
  /-- `cur`, the current-frame register (R28). -/
  cur : LedState
  /-- `frm`, the held frame (R29). -/
  frm : LedState
  /-- `lvl`, the active level (R30). -/
  lvl : BitVec 2
  /-- `sl`, the held slice (R31). -/
  sl : Slice
  /-- `st` (R32). -/
  st : DriverSt
  /-- `bc`, the bit counter (R33). -/
  bc : BitVec 4
  /-- `ph`, the phase (R33). -/
  ph : Bool
  /-- `ovr`, the sticky overrun flag (R34). -/
  ovr : Bool
  /-- `SER` (R35). -/
  ser : Bool
  /-- `SRCLK` (R35). -/
  srclk : Bool
  /-- `RCLK` (R35). -/
  rclk : Bool
  /-- `OE_N`, active low (R35). -/
  oeN : Bool
  /-- `CATH[3:0]` (R35). -/
  cath : BitVec 4
deriving DecidableEq, Repr

/-- RESET: the values of R41. -/
def Driver.reset : Driver :=
  { cur := 0, frm := 0, lvl := 0, sl := 0, st := .blank, bc := 0, ph := false, ovr := false, ser := false,
    srclk := false, rclk := false, oeN := true, cath := 0 }

/-- The external shift-register chain's two stages (R200): environment, not part of the CORE (Log 4). -/
structure Chain where
  /-- The shift stage. -/
  sr : BitVec 16
  /-- The output stage. -/
  q : BitVec 16
deriving DecidableEq, Repr

structure State where
  /-- The build-time parameters; no step writes them (Log 1). -/
  build : Build
  /-- What is on the input ports now. -/
  ports : PortInputs
  /-- `r_out`, the operation unit's result now (R25; Log 10). -/
  rOut : LedState
  /-- `illegal`, the operation unit's flag now (R25, R37; Log 10). -/
  illegal : Bool
  /-- The refresh driver's registers. -/
  driver : Driver
  /-- The reference chain on the driver's pins. -/
  chain : Chain
  /-- What the outside presents in the coming steps, first entry first (Log 2). -/
  schedule : List PortInputs
  /-- How many free inputs have been drawn: the model's own counter (Log 2). -/
  drawn : Nat
deriving DecidableEq, Repr

/-- A machine before its first reset: every register any value, so the caller gives them (70_reset_and_hazards.md R263,
D24, POWER_ON_STATE; Log 12). -/
def State.powerOn (build : Build) (d : Driver) (c : Chain) (r : LedState) (ill : Bool) (schedule : List PortInputs) :
    State :=
  { build := build, ports := PortInputs.idle, rOut := r, illegal := ill, driver := d, chain := c,
    schedule := schedule, drawn := 0 }

/-- Right after E0, the last edge with `rst` = 1: every driver register as R41 says, the default build (R6), the ports
showing that edge with the word 0x000 (Log 5), the chain at a value the model names (Log 4), nothing scheduled (Log 2). -/
def State.reset : State :=
  { build := Build.default
    ports := { PortInputs.idle with clk := true, rst := true }
    rOut := 0
    illegal := false
    driver := Driver.reset
    chain := { sr := 0, q := 0 }
    schedule := []
    drawn := 0 }

end Sys2Proof.Machine
end

