-- ==== Sys2Proof/Machine/Flags.lean ====
section
/-! DEFINITION. The two status flags (10_state.md R37): `illegal`, combinational, and `ovr`, sticky. There are no condition
codes. -/

namespace Sys2Proof.Machine

/-- `illegal` as the operation unit drives it: 1 exactly for a word that is no legal encoding (R37, R85, R100). -/
def illegalFlag : Decoded → Bool
  | .legal _ => false
  | .illegal _ => true

/-- A tick event outside ENABLE: dropped (42_refresh_driver.md R176, 60_exceptions.md R234). -/
def tickDropped (d : Driver) (i : PortInputs) : Bool := i.tick && decide (d.st ≠ .enable)

/-- A tick event in ENABLE: accepted (R176). -/
def tickAccepted (d : Driver) (i : PortInputs) : Bool := i.tick && decide (d.st = .enable)

/-- `ovr` after an edge with `rst` = 0: set by a dropped tick, else held (R34, R234). -/
def ovrNext (d : Driver) (i : PortInputs) : Bool := d.ovr || tickDropped d i

end Sys2Proof.Machine
end

