-- ==== Sys2Proof/Machine/Operands.lean ====
section
/-! DEFINITION. The operand forms (30_encoding.md R72 to R80): unsigned argument fields, masked to their width, and the
64-bit port `s_in`. -/

namespace Sys2Proof.Machine

/-- A coordinate or level as the CORE uses it: reduced to its low 2 bits (R80; C6; Log 9). -/
def coord (v : Nat) : Nat := v % 4

/-- A column as the CORE uses it: reduced to its low 4 bits (R80). -/
def column (c : Nat) : Nat := c % 16

/-- The instruction with every operand reduced to its field (R80, R233). -/
def maskOperands : Instr → Instr
  | .bitindex x y z => .bitindex (coord x) (coord y) (coord z)
  | .pixmask x y z => .pixmask (coord x) (coord y) (coord z)
  | .levelmask l => .levelmask (coord l)
  | .columnmask c => .columnmask (column c)
  | .slicemaskX k => .slicemaskX (coord k)
  | .slicemaskY k => .slicemaskY (coord k)
  | .slicemaskZ k => .slicemaskZ (coord k)
  | .shiftX => .shiftX
  | .shiftY => .shiftY
  | .shiftZ => .shiftZ
  | .unshiftX => .unshiftX
  | .unshiftY => .unshiftY
  | .unshiftZ => .unshiftZ
  | .lvlslice l => .lvlslice (coord l)
  | .statemask => .statemask

/-- The operand on the port `s_in` (R77, R79). -/
def stateOperand (s : State) : LedState := s.ports.sIn

/-- Which operations read `s_in` (R79): LVLSLICE, SHIFT and UNSHIFT only. -/
def readsSIn : Instr → Bool
  | .bitindex _ _ _ => false
  | .pixmask _ _ _ => false
  | .levelmask _ => false
  | .columnmask _ => false
  | .slicemaskX _ => false
  | .slicemaskY _ => false
  | .slicemaskZ _ => false
  | .shiftX => true
  | .shiftY => true
  | .shiftZ => true
  | .unshiftX => true
  | .unshiftY => true
  | .unshiftZ => true
  | .lvlslice _ => true
  | .statemask => false

/-- The stride of an axis (R74, R140): L² for X, L for Y, 1 for Z. -/
def stride : Axis → Nat
  | .x => 16
  | .y => 4
  | .z => 1

end Sys2Proof.Machine
end

