-- ==== Sys2Proof/Machine/Ops.lean ====
section
/-! DEFINITION. The shared operations (00_scope.md R11): driving the operation unit's outputs, `signal illegal`, the
current-frame write port and its one reader, presenting the inputs.
THERE IS NO EXCEPTION ENTRY AND NO RETURN FROM ONE: "no cause register, vector table or handler address; no saved state,
and no mode change on an error; no return-from-trap" (60_exceptions.md R230, R240). What stands in their place is
`signalIllegal` and the flag `ovr` (R231). -/

namespace Sys2Proof.Machine

/-- onehot4(l): the 4-bit word with only bit l set (00_scope.md R9). -/
def onehot4 (l : BitVec 2) : BitVec 4 := 1#4 <<< l.toNat

/-! ## The operation unit's outputs -/

/-- A legal operation drives `r_out` with its value and `illegal` with 0, in the same cycle (40_codec.md R100). -/
def driveResult (v : LedState) (s : State) : State := { s with rOut := v, illegal := false }

/-- `signal illegal` (R11, R85): `r_out` = 0, `illegal` = 1, nothing else (Log 3). -/
def signalIllegal (s : State) : State := { s with rOut := 0, illegal := true }

/-! ## The current-frame register -/

/-- CurWrite: `cur` after an edge with `rst` = 0 (20_memory.md R52). -/
def curNext (d : Driver) (i : PortInputs) : LedState := if i.curWe then i.curD else d.cur

/-- The frame of the level that BLANK selects: `cur` for level 0, `frm` otherwise (20_memory.md R54,
42_refresh_driver.md R182). -/
def blankFrame (d : Driver) : LedState := if d.lvl = 0 then d.cur else d.frm

/-! ## The input ports -/

/-- What the outside presents next: the schedule's first entry, or a free value that keeps R267 (Log 2). -/
def nextInputs (s : State) : PortInputs :=
  match s.schedule with
  | [] => { Config.freeInputs s.drawn with stable := true }
  | i :: _ => i

/-- Put the next inputs on the ports. -/
def present (s : State) : State :=
  match s.schedule with
  | [] => { s with ports := nextInputs s, drawn := s.drawn + 1 }
  | _ :: rest => { s with ports := nextInputs s, schedule := rest }

/-- A rising edge of clk with inputs that are not stable around it (R267; Log 8). -/
def unsynchronised (i : PortInputs) : Bool := i.clk && !i.stable

/-! ## The output ports -/

/-- Everything the CORE shows outside (10_state.md R25, R26); `frm`, `sl`, `bc`, `ph`, `lvl`, `st` and `cur` have no port
of their own (R40). -/
structure Outputs where
  rOut : LedState
  illegal : Bool
  ser : Bool
  srclk : Bool
  rclk : Bool
  oeN : Bool
  cath : BitVec 4
  ovr : Bool
deriving DecidableEq, Repr

/-- Each pin shows its register directly (R35). -/
def outputs (s : State) : Outputs :=
  { rOut := s.rOut, illegal := s.illegal, ser := s.driver.ser, srclk := s.driver.srclk, rclk := s.driver.rclk,
    oeN := s.driver.oeN, cath := s.driver.cath, ovr := s.driver.ovr }

end Sys2Proof.Machine
end

