-- ==== Sys2Proof/Machine/Codec.lean ====
section
/-! DEFINITION. The Coordinate Codec (40_codec.md): its functions in the general form in L (R101) and as the operations
compute them at L = 4, and the nine operations. -/

namespace Sys2Proof.Machine

/-! ## General forms in L (R101, 10_state.md R20) -/

/-- bitIndex(x, y, z) = L·L·x + L·y + z (R20). -/
def genBitIndex (L x y z : Nat) : Nat := L * L * x + L * y + z

/-- OR over the indices of `1 << index`. -/
def orBits (is : List Nat) : Nat := is.foldr (fun i m => 1 <<< i ||| m) 0

/-- Every pair of coordinates in 0..L−1. -/
def coordPairs (L : Nat) : List (Nat × Nat) :=
  (List.range L).flatMap fun a => (List.range L).map fun b => (a, b)

/-- LED_STATE_MASK = 2^(L·L·L) − 1. -/
def genStateMask (L : Nat) : Nat := 2 ^ (L * L * L) - 1

/-- levelMask(l): OR over x, y. -/
def genLevelMask (L l : Nat) : Nat := orBits ((coordPairs L).map fun p => genBitIndex L p.1 p.2 l)

/-- columnMask(c) = (2^L − 1) << (L·c). -/
def genColumnMask (L c : Nat) : Nat := (2 ^ L - 1) <<< (L * c)

/-- axisSliceMask(a, k): OR over the two other coordinates. -/
def genAxisSliceMask (L : Nat) (a : Axis) (k : Nat) : Nat :=
  orBits ((coordPairs L).map fun p =>
    match a with
    | .x => genBitIndex L k p.1 p.2
    | .y => genBitIndex L p.1 k p.2
    | .z => genBitIndex L p.1 p.2 k)

/-! ## The forms at L = 4 -/

/-- 16x + 4y + z, with masked coordinates (R20, R102). -/
def bitIndex (x y z : Nat) : Nat := 16 * coord x + 4 * coord y + coord z

/-- The reverse map: x = i[5:4], y = i[3:2], z = i[1:0], c = i[5:2] (10_state.md R21). -/
def indexX (i : Nat) : Nat := i / 16 % 4
/-- y = i[3:2] (R21). -/
def indexY (i : Nat) : Nat := i / 4 % 4
/-- z = i[1:0] (R21). -/
def indexZ (i : Nat) : Nat := i % 4
/-- c = i[5:2] (R21). -/
def indexColumn (i : Nat) : Nat := i / 4 % 16

/-- The anode column of (x, y): 4x + y (R21). -/
def columnOf (x y : Nat) : Nat := 4 * coord x + coord y

/-- LED_STATE_MASK: all 64 bits (R22, R128). -/
def ledStateMask : LedState := 0xFFFF_FFFF_FFFF_FFFF

/-- One bit (R104). -/
def pixMask (x y z : Nat) : LedState := 1#64 <<< bitIndex x y z

/-- 0x1111… << l (R106). -/
def levelMask (l : Nat) : LedState := 0x1111_1111_1111_1111#64 <<< coord l

/-- 0xF << 4c (R108). -/
def columnMask (c : Nat) : LedState := 0xF#64 <<< (4 * column c)

/-- The closed forms of R114. -/
def axisSliceMask : Axis → Nat → LedState
  | .x, k => 0xFFFF#64 <<< (16 * coord k)
  | .y, k => 0x000F_000F_000F_000F#64 <<< (4 * coord k)
  | .z, k => 0x1111_1111_1111_1111#64 <<< coord k

/-- levelSlice(s, l)[c] = s[4c + l] for c = 0..15 (R112). -/
def levelSlice (s : LedState) (l : Nat) : Slice := BitVec.ofFnLE fun c : Fin 16 => s.getLsbD (4 * c.val + coord l)

/-- A slice on a 64-bit port: column c on wire c, wires 16 to 63 zero (R126). -/
def sliceOnPort (v : Slice) : LedState := v.setWidth 64

/-! ## The operations -/

/-- BITINDEX x, y, z (R102). -/
def execBitindex (x y z : Nat) (s : State) : Host.Outcome State Fault Refusal :=
  .next (driveResult (BitVec.ofNat 64 (bitIndex x y z)) s)

/-- PIXMASK x, y, z (R104). -/
def execPixmask (x y z : Nat) (s : State) : Host.Outcome State Fault Refusal :=
  .next (driveResult (pixMask x y z) s)

/-- LEVELMASK l (R106). -/
def execLevelmask (l : Nat) (s : State) : Host.Outcome State Fault Refusal :=
  .next (driveResult (levelMask l) s)

/-- COLUMNMASK c (R108). -/
def execColumnmask (c : Nat) (s : State) : Host.Outcome State Fault Refusal :=
  .next (driveResult (columnMask c) s)

/-- SLICEMASK.X k (R116). -/
def execSlicemaskX (k : Nat) (s : State) : Host.Outcome State Fault Refusal :=
  .next (driveResult (axisSliceMask .x k) s)

/-- SLICEMASK.Y k (R118). -/
def execSlicemaskY (k : Nat) (s : State) : Host.Outcome State Fault Refusal :=
  .next (driveResult (axisSliceMask .y k) s)

/-- SLICEMASK.Z k (R120). -/
def execSlicemaskZ (k : Nat) (s : State) : Host.Outcome State Fault Refusal :=
  .next (driveResult (axisSliceMask .z k) s)

/-- LVLSLICE l (R124): in column order, whatever SHIFT_ORDER is. -/
def execLvlslice (l : Nat) (s : State) : Host.Outcome State Fault Refusal :=
  .next (driveResult (sliceOnPort (levelSlice (stateOperand s) l)) s)

/-- STATEMASK (R128). -/
def execStatemask (s : State) : Host.Outcome State Fault Refusal :=
  .next (driveResult ledStateMask s)

end Sys2Proof.Machine
end

