-- ==== Sys2Proof/Machine/Driver.lean ====
section
/-! DEFINITION. The Multiplexed Refresh Driver (42_refresh_driver.md): the step rule R180, one definition for each arm.
Every right-hand side reads the registers before the edge (00_scope.md R10). -/

namespace Sys2Proof.Machine

/-- order(k): which column the k-th serial bit is (30_encoding.md R89, R184). -/
def order (o : ShiftOrder) (k : Nat) : Nat :=
  match o with
  | .msbFirst => 15 - k
  | .lsbFirst => k

/-- Bit k of the serial sequence of a slice (R89). -/
def serialBit (o : ShiftOrder) (sl : Slice) (k : Nat) : Bool := sl.getLsbD (order o k)

/-- The slice that BLANK selects: the 4-to-1 level selector (R182). -/
def blankSlice (d : Driver) : Slice := levelSlice (blankFrame d) d.lvl.toNat

/-- BLANK (R182): sample at level 0, select the slice, present the first bit, everything blanked. -/
def blankArm (o : ShiftOrder) (d : Driver) : Driver :=
  { d with
    frm := blankFrame d
    sl := blankSlice d
    st := .shift
    bc := 0
    ph := false
    ser := serialBit o (blankSlice d) 0
    srclk := false
    rclk := false
    oeN := true
    cath := 0 }

/-- SHIFT, phase 0 (R185): SRCLK rises, SER is held. -/
def shiftRise (d : Driver) : Driver := { d with ph := true, srclk := true }

/-- SHIFT, phase 1, bc < 15 (R187): the next bit. -/
def shiftNextBit (o : ShiftOrder) (d : Driver) : Driver :=
  { d with bc := d.bc + 1, ph := false, ser := serialBit o d.sl (d.bc + 1).toNat, srclk := false }

/-- SHIFT, phase 1, bc = 15 (R187): RCLK rises. -/
def shiftToLatch (d : Driver) : Driver :=
  { d with st := .latch, ph := false, ser := false, srclk := false, rclk := true }

/-- SHIFT (R185, R187). -/
def shiftArm (o : ShiftOrder) (d : Driver) : Driver :=
  if d.ph = false then shiftRise d
  else if d.bc ≠ 15 then shiftNextBit o d
  else shiftToLatch d

/-- LATCH (R188): RCLK falls and the level is lit at the same edge. -/
def latchArm (d : Driver) : Driver :=
  { d with st := .enable, rclk := false, oeN := false, cath := onehot4 d.lvl }

/-- An accepted tick in ENABLE (R186): next level, dark at the same edge. -/
def enableTick (d : Driver) : Driver :=
  { d with lvl := d.lvl + 1, st := .blank, oeN := true, cath := 0 }

/-- ENABLE (R186): held until a tick. -/
def enableArm (tick : Bool) (d : Driver) : Driver := if tick then enableTick d else d

/-- The sequencing part of R180: the arm of the present state. It writes neither `cur` nor `ovr`. -/
def driverArm (o : ShiftOrder) (d : Driver) (tick : Bool) : Driver :=
  match d.st with
  | .blank => blankArm o d
  | .shift => shiftArm o d
  | .latch => latchArm d
  | .enable => enableArm tick d

/-- step(S, in) of R180: reset overrides everything (60_exceptions.md R238); otherwise CurWrite, `ovr` and the arm all
take effect at the one edge. -/
def driverNext (o : ShiftOrder) (d : Driver) (i : PortInputs) : Driver :=
  if i.rst then Driver.reset
  else { driverArm o d i.tick with cur := curNext d i, ovr := ovrNext d i }

/-- The driver after the edges at which `is` are sampled, in turn. -/
def driverRun (o : ShiftOrder) (d : Driver) (is : List PortInputs) : Driver := is.foldl (driverNext o) d

end Sys2Proof.Machine
end

