-- ==== Sys2Proof/Machine/Chain.lean ====
section
/-! DEFINITION. The environment on the driver's pins: the reference shift-register chain of 42_refresh_driver.md R200
(board hardware, D21; its shift direction and output numbering are the spec's own "from general knowledge"; Log 4), which
LED is lit, and what one rising edge of clk does to driver and chain together. -/

namespace Sys2Proof.Machine

/-- A rising edge of a pin, from its values before and after a clock edge. -/
def rises (before after : Bool) : Bool := !before && after

/-- `sr <- {sr[14:0], SER}` (R200). -/
def shiftIn (sr : BitVec 16) (ser : Bool) : BitVec 16 := sr.extractLsb' 0 15 ++ BitVec.ofBool ser

/-- The chain after the driver's pins go from those of `d` to those of `d'` (R200). The bit shifted in is SER as it was
presented before the edge (R185; Log 11). -/
def chainNext (d d' : Driver) (c : Chain) : Chain :=
  { sr := if rises d.srclk d'.srclk then shiftIn c.sr d.ser else c.sr
    q := if rises d.rclk d'.rclk then c.sr else c.q }

/-- LED (column j, level l) is lit: OE_N = 0, CATH[l] = 1 and q[j] = 1 (R200). -/
def lit (s : State) (j l : Nat) : Bool := !s.driver.oeN && s.driver.cath.getLsbD l && s.chain.q.getLsbD j

/-- What the present inputs' clock edge does, if there is one: "No driver register changes between edges" (R174), and a
stopped clk keeps every register (60_exceptions.md R252; Log 7). -/
def clockEdge (s : State) : State :=
  if s.ports.clk then
    { s with
      driver := driverNext s.build.shiftOrder s.driver s.ports
      chain := chainNext s.driver (driverNext s.build.shiftOrder s.driver s.ports) s.chain }
  else s

end Sys2Proof.Machine
end

