-- ==== Sys2Proof/Machine/Transform.lean ====
section
/-! DEFINITION. The Geometric Transform Engine (41_transform.md): one-step translations, with zeros entering and no
wraparound, and its six operations. -/

namespace Sys2Proof.Machine

/-- shiftAxis(s, a): toward increasing coordinate; the entry plane, coordinate 0, is cleared (R140). -/
def shiftAxis (s : LedState) (a : Axis) : LedState :=
  ((s <<< stride a) &&& ledStateMask) &&& ~~~ axisSliceMask a 0

/-- unshiftAxis(s, a): toward decreasing coordinate; the entry plane, coordinate 3, is cleared (R141). -/
def unshiftAxis (s : LedState) (a : Axis) : LedState :=
  (s >>> stride a) &&& ~~~ axisSliceMask a 3

/-- SHIFT.X (R142). -/
def execShiftX (s : State) : Host.Outcome State Fault Refusal :=
  .next (driveResult (shiftAxis (stateOperand s) .x) s)

/-- SHIFT.Y (R143). -/
def execShiftY (s : State) : Host.Outcome State Fault Refusal :=
  .next (driveResult (shiftAxis (stateOperand s) .y) s)

/-- SHIFT.Z (R144). -/
def execShiftZ (s : State) : Host.Outcome State Fault Refusal :=
  .next (driveResult (shiftAxis (stateOperand s) .z) s)

/-- UNSHIFT.X (R145). -/
def execUnshiftX (s : State) : Host.Outcome State Fault Refusal :=
  .next (driveResult (unshiftAxis (stateOperand s) .x) s)

/-- UNSHIFT.Y (R146). -/
def execUnshiftY (s : State) : Host.Outcome State Fault Refusal :=
  .next (driveResult (unshiftAxis (stateOperand s) .y) s)

/-- UNSHIFT.Z (R147). -/
def execUnshiftZ (s : State) : Host.Outcome State Fault Refusal :=
  .next (driveResult (unshiftAxis (stateOperand s) .z) s)

end Sys2Proof.Machine
end

