-- ==== Sys2Proof/Machine/Dispatch.lean ====
section
/-! DEFINITION. Which meaning each instruction has, one arm per constructor. -/

namespace Sys2Proof.Machine

def exec (i : Instr) (s : State) : Host.Outcome State Fault Refusal :=
  match i with
  | .bitindex x y z => Sys2Proof.Machine.execBitindex x y z s
  | .pixmask x y z => Sys2Proof.Machine.execPixmask x y z s
  | .levelmask l => Sys2Proof.Machine.execLevelmask l s
  | .columnmask c => Sys2Proof.Machine.execColumnmask c s
  | .slicemaskX k => Sys2Proof.Machine.execSlicemaskX k s
  | .slicemaskY k => Sys2Proof.Machine.execSlicemaskY k s
  | .slicemaskZ k => Sys2Proof.Machine.execSlicemaskZ k s
  | .shiftX => Sys2Proof.Machine.execShiftX s
  | .shiftY => Sys2Proof.Machine.execShiftY s
  | .shiftZ => Sys2Proof.Machine.execShiftZ s
  | .unshiftX => Sys2Proof.Machine.execUnshiftX s
  | .unshiftY => Sys2Proof.Machine.execUnshiftY s
  | .unshiftZ => Sys2Proof.Machine.execUnshiftZ s
  | .lvlslice l => Sys2Proof.Machine.execLvlslice l s
  | .statemask => Sys2Proof.Machine.execStatemask s

end Sys2Proof.Machine
end

