-- ==== Sys2Proof/Machine/Step.lean ====
section
/-! DEFINITION. One step: the outside presents its next inputs, the operation unit evaluates the word on `opw` in the same
cycle (40_codec.md R100), and, where the presentation ends in a rising edge of clk, the driver steps (R180). -/

namespace Sys2Proof.Machine

/-- The two units share no state (10_state.md R24), so their order within the step does not matter. An illegal word stops
nothing (30_encoding.md R85; Log 3). -/
def step (s : State) : Host.Outcome State Fault Refusal :=
  let p := present s
  if unsynchronised p.ports then .refused .unsynchronisedInputs
  else
    match decode p.ports.opw with
    | .legal i =>
      match exec i p with
      | .next t => .next (clockEdge t)
      | .fault f => .fault f
      | .refused r => .refused r
    | .illegal _ => .next (clockEdge (signalIllegal p))

/-- `s` with the table word `w` presented next on `opw`: the machine fetches nothing (R36, R60), so the word is put at the
head of the schedule, with `s_in` as it is now and no edge of clk (Log 6). -/
def State.withFetchWord (s : State) (nbits w : Nat) : State :=
  { s with
    schedule :=
      { PortInputs.idle with opw := BitVec.ofNat 12 (w % 2 ^ nbits), sIn := s.ports.sIn } :: s.schedule }

end Sys2Proof.Machine
end

