-- ==== Sys2Proof/Machine/Timing.lean ====
section
/-! DEFINITION. Cycle counts and rates (42_refresh_driver.md R190, R204; 70_reset_and_hazards.md R270, R272, R274).
F_CLK and T_TICK are OPEN parameters (D25): arguments here. DESIGN CHOICE (safe, Log 13): F_CLK, whose domain the spec does
not give, is a whole number of hertz. -/

namespace Sys2Proof.Machine

/-- BLANK: 1 cycle (R274). -/
def blankCycles : Nat := 1

/-- SHIFT: 16 bits × 2 phases (R274). -/
def shiftCycles : Nat := 16 * 2

/-- LATCH: 1 cycle (R274). -/
def latchCycles : Nat := 1

/-- The dark part of a level: 34 cycles (R190, R274). -/
def darkCycles : Nat := blankCycles + shiftCycles + latchCycles

/-- The least tick spacing at which no tick is dropped: 35 (R190, R272). -/
def minTickSpacing : Nat := darkCycles + 1

/-- ENABLE: T_TICK − 34 (R204, R274). -/
def litCycles (tTick : Nat) : Nat := tTick - darkCycles

/-- A full refresh: 4 levels (R204, R274). -/
def refreshCycles (tTick : Nat) : Nat := Config.levels * tTick

/-- The level-switch rate F_CLK / T_TICK (R204), F_CLK in whole hertz (Log 13). -/
def levelSwitchRate (fClk tTick : Nat) : Rat := (fClk : Rat) / (tTick : Rat)

/-- The full-cube refresh rate F_CLK / (4·T_TICK) (R204), F_CLK in whole hertz (Log 13). -/
def refreshRate (fClk tTick : Nat) : Rat := (fClk : Rat) / (refreshCycles tTick : Rat)

/-- The source's targets: at least 400 Hz level-switch rate (R204, R272). -/
def targetSwitchRate : Nat := 400

/-- T_TICK is at most F_CLK / 400 (R272), without division, F_CLK in whole hertz (Log 13). -/
def meetsRateTarget (fClk tTick : Nat) : Prop := targetSwitchRate * tTick ≤ fClk

end Sys2Proof.Machine
end

