-- ==== Sys2Proof/Safety.lean ====
section
/-! DEFINITION. The terms claims are stated in: the two conditions a run may show (60_exceptions.md R231), what each
operation means LED by LED, the timeline of a level (42_refresh_driver.md R190), and the invariants that hold in every state
reachable from reset. -/

namespace Sys2Proof.Safety

open Sys2Proof.Machine

/-! ## Conditions -/

/-- The conditions of R231, which the CORE shows on a status output and never by a change of control flow. -/
inductive Condition where
  /-- `illegal` = 1: the word on `opw` is no legal encoding. -/
  | illegalOp
  /-- `ovr` = 1: a tick was dropped since the last reset. -/
  | tickOverrun
deriving DecidableEq, Repr

/-- The labels of R231. -/
def Condition.label : Condition → Nat
  | .illegalOp => 1
  | .tickOverrun => 2

/-- The conditions shown now. -/
def conditions (s : State) : List Condition :=
  (if s.illegal then [.illegalOp] else []) ++ (if s.driver.ovr then [.tickOverrun] else [])

/-- A state is quiet when it shows no condition (93_implementation_defined.md rows 8 and 10). -/
abbrev Quiet (s : State) : Prop := conditions s = []

/-! ## The operations, LED by LED -/

/-- The LED (x, y, z) after a shift toward increasing coordinate (41_transform.md R148). -/
def shiftedLed (s : LedState) (a : Axis) (x y z : Nat) : Bool :=
  match a with
  | .x => decide (1 ≤ x) && s.getLsbD (16 * (x - 1) + 4 * y + z)
  | .y => decide (1 ≤ y) && s.getLsbD (16 * x + 4 * (y - 1) + z)
  | .z => decide (1 ≤ z) && s.getLsbD (16 * x + 4 * y + (z - 1))

/-- The LED (x, y, z) after a shift toward decreasing coordinate (R148). -/
def unshiftedLed (s : LedState) (a : Axis) (x y z : Nat) : Bool :=
  match a with
  | .x => decide (x ≤ 2) && s.getLsbD (16 * (x + 1) + 4 * y + z)
  | .y => decide (y ≤ 2) && s.getLsbD (16 * x + 4 * (y + 1) + z)
  | .z => decide (z ≤ 2) && s.getLsbD (16 * x + 4 * y + (z + 1))

/-- The coordinate of bit n along an axis (10_state.md R21). -/
def axisCoord (a : Axis) (n : Nat) : Nat :=
  match a with
  | .x => indexX n
  | .y => indexY n
  | .z => indexZ n

/-- Bit n of an operation's result, from the rules' per-LED forms (40_codec.md R101, R102, R112; 41_transform.md R148)
and not from the word arithmetic of the meanings. -/
def resultBit (i : Instr) (s : LedState) (n : Nat) : Bool :=
  match i with
  | .bitindex x y z => (genBitIndex 4 (coord x) (coord y) (coord z)).testBit n
  | .pixmask x y z => decide (indexX n = coord x ∧ indexY n = coord y ∧ indexZ n = coord z)
  | .levelmask l => decide (indexZ n = coord l)
  | .columnmask c => decide (indexColumn n = column c)
  | .slicemaskX k => decide (axisCoord .x n = coord k)
  | .slicemaskY k => decide (axisCoord .y n = coord k)
  | .slicemaskZ k => decide (axisCoord .z n = coord k)
  | .shiftX => shiftedLed s .x (indexX n) (indexY n) (indexZ n)
  | .shiftY => shiftedLed s .y (indexX n) (indexY n) (indexZ n)
  | .shiftZ => shiftedLed s .z (indexX n) (indexY n) (indexZ n)
  | .unshiftX => unshiftedLed s .x (indexX n) (indexY n) (indexZ n)
  | .unshiftY => unshiftedLed s .y (indexX n) (indexY n) (indexZ n)
  | .unshiftZ => unshiftedLed s .z (indexX n) (indexY n) (indexZ n)
  | .lvlslice l => decide (n < 16) && s.getLsbD (4 * n + coord l)
  | .statemask => true

/-- The operation unit as the pure function of R100: (`r_out`, `illegal`) from `opw` and `s_in` alone. -/
def opUnit (w : OpWord) (sIn : LedState) : LedState × Bool :=
  match decode w with
  | .legal i => (BitVec.ofFnLE fun n : Fin 64 => resultBit i sIn n.val, false)
  | .illegal _ => (0, true)

/-- How many LEDs are lit in a state word. -/
def litCount (s : LedState) : Nat := ((List.range 64).filter fun n => s.getLsbD n).length

/-! ## The driver's pins -/

/-- The five protocol pins (30_encoding.md R88). -/
structure Pins where
  ser : Bool
  srclk : Bool
  rclk : Bool
  oeN : Bool
  cath : BitVec 4
deriving DecidableEq, Repr

/-- The pins as the driver drives them. -/
def pinsOf (d : Driver) : Pins :=
  { ser := d.ser, srclk := d.srclk, rclk := d.rclk, oeN := d.oeN, cath := d.cath }

/-- One row of R190's table. -/
structure Row where
  st : DriverSt
  bc : BitVec 4
  ph : Bool
  pins : Pins
deriving DecidableEq, Repr

/-- The row a driver is in. -/
def rowOf (d : Driver) : Row := { st := d.st, bc := d.bc, ph := d.ph, pins := pinsOf d }

/-- Pins with everything low and the anodes blanked. -/
def darkPins : Pins := { ser := false, srclk := false, rclk := false, oeN := true, cath := 0 }

/-- R190 for cycle n ≥ 1 of a level: the slice `sl` of level `lvl`. Cycle 0, BLANK, has `darkPins`. -/
def timelineRow (o : ShiftOrder) (sl : Slice) (lvl : BitVec 2) (n : Nat) : Row :=
  if n ≤ 32 then
    { st := .shift, bc := BitVec.ofNat 4 ((n - 1) / 2), ph := decide (n % 2 = 0)
      pins := { darkPins with ser := serialBit o sl ((n - 1) / 2), srclk := decide (n % 2 = 0) } }
  else if n = 33 then { st := .latch, bc := 15, ph := false, pins := { darkPins with rclk := true } }
  else { st := .enable, bc := 15, ph := false, pins := { darkPins with oeN := false, cath := onehot4 lvl } }

/-- The pins that R190's table gives for (st, bc, ph, lvl, sl). -/
def expectedPins (o : ShiftOrder) (d : Driver) : Pins :=
  match d.st with
  | .blank => darkPins
  | .shift => { darkPins with ser := serialBit o d.sl d.bc.toNat, srclk := d.ph }
  | .latch => { darkPins with rclk := true }
  | .enable => { darkPins with oeN := false, cath := onehot4 d.lvl }

/-- R192: the pins are those of the row for (st, bc, ph, lvl, sl); ph = 1 only in SHIFT; LATCH and ENABLE have bc = 15. -/
abbrev PinsMatch (o : ShiftOrder) (d : Driver) : Prop :=
  pinsOf d = expectedPins o d ∧ (d.ph = true → d.st = .shift) ∧ (d.st = .latch ∨ d.st = .enable → d.bc = 15)

/-- Outside BLANK the held slice is the slice of the held frame (20_memory.md R56, R198). -/
abbrev FrameHeld (d : Driver) : Prop := d.st ≠ .blank → d.sl = levelSlice d.frm d.lvl.toNat

/-- How many bits of the slice the chain has taken in SHIFT. -/
def bitsShifted (d : Driver) : Nat := d.bc.toNat + d.ph.toNat

/-- The reference chain has the bits sent so far, the first sent furthest in (R200), and, once latched, shows them. -/
abbrev ChainFollows (o : ShiftOrder) (d : Driver) (c : Chain) : Prop :=
  match d.st with
  | .blank => True
  | .shift => ∀ j, j < bitsShifted d → c.sr.getLsbD j = serialBit o d.sl (bitsShifted d - 1 - j)
  | .latch => ∀ j, j < 16 → c.q.getLsbD j = serialBit o d.sl (15 - j)
  | .enable => ∀ j, j < 16 → c.q.getLsbD j = serialBit o d.sl (15 - j)

/-- The invariant of the display: pins, held slice and chain agree. -/
def DisplayInv (s : State) : Prop :=
  PinsMatch s.build.shiftOrder s.driver ∧ FrameHeld s.driver ∧ ChainFollows s.build.shiftOrder s.driver s.chain

/-- The next step samples the inputs `i` at a rising edge of clk, stable around it (R174, R267). -/
abbrev Edge (s : State) (i : PortInputs) : Prop := nextInputs s = i ∧ i.clk = true ∧ i.stable = true

/-- The step does not break R267: it goes on. -/
abbrev Stable (s : State) : Prop := unsynchronised (nextInputs s) = false

/-- No reset at any edge of `is`. -/
abbrev NoReset (is : List PortInputs) : Prop := ∀ i ∈ is, i.rst = false

/-- No tick at any edge of `is`. -/
abbrev NoTick (is : List PortInputs) : Prop := ∀ i ∈ is, i.tick = false

/-- Is there a tick at edge `j` of `is`? -/
def tickAt (is : List PortInputs) (j : Nat) : Bool := (is[j]?.map PortInputs.tick).getD false

/-- Any two ticks of `is` are `n` or more edges apart. -/
abbrev TicksApart (n : Nat) (is : List PortInputs) : Prop :=
  ∀ k, k < is.length → ∀ j, j < k → tickAt is j = true → tickAt is k = true → j + n ≤ k

/-- The operation unit's outputs become `v` and `illegal` = 0, and nothing else changes. -/
abbrev withResult (s : State) (v : LedState) : State := { s with rOut := v, illegal := false }

/-- Reachable from reset: some steps after a state whose driver registers are those of R41, whatever the build, the chain,
the operation unit's outputs and the schedule are. -/
inductive Reachable : State → Prop where
  | reset (s : State) (h : s.driver = Driver.reset) : Reachable s
  | step (s t : State) (h : Reachable s) (hs : Machine.step s = .next t) : Reachable t

/-- The driver before the first and after each of the edges at which `is` are sampled. -/
def driverTrace (o : ShiftOrder) (d : Driver) : List PortInputs → List Driver
  | [] => [d]
  | i :: is => d :: driverTrace o (driverNext o d i) is

/-- The drivers of a trace right after an edge at which the pin `f` rises. -/
def risesOf (f : Driver → Bool) : List Driver → List Driver
  | [] => []
  | [_] => []
  | d :: e :: ds => (if rises (f d) (f e) then [e] else []) ++ risesOf f (e :: ds)

end Sys2Proof.Safety
end

