-- ==== Sys2Proof/Certificates/Slice0/Obligations.lean ====
section
/-! DEFINITION. The statements for the provers. Each docstring names the rules of spec/ it rests on. A statement about a run
of the driver speaks of driverRun, the driver after the edges at which the listed inputs are sampled; NoEdgeNoChange ties one
step of the machine to one edge. Every statement holds for both values of SHIFT_ORDER (Log 1) and for every content of the
reference chain (Log 4), unless it says otherwise. -/

open Sys2Proof Sys2Proof.Machine Sys2Proof.Safety

/-! ## Encoding (30_encoding.md) -/

/-- Decoding the word of a well-formed instruction gives that instruction, with every operand (R70 to R78). -/
def Obligations.DecodeOfEncodeIsTheInstruction : Prop :=
  ∀ i : Instr, i.wf = true → decode (encode i) = .legal i

/-- A legal word has one meaning: it is the word of the instruction it decodes to, whose operands fit their fields (R81). -/
def Obligations.EncodeOfDecodeIsTheWord : Prop :=
  ∀ (w : OpWord) (i : Instr), decode w = .legal i → encode i = w ∧ i.wf = true

/-- R81, the case list as the rule writes it, and: a word matches exactly the one row of opcode_table.json that it decodes
to, or none where it is illegal. -/
def Obligations.DecoderFollowsTheCaseList : Prop :=
  ∀ w : OpWord,
    let OP := w.extractLsb' 8 4
    let AX := w.extractLsb' 6 2
    let ARG := w.extractLsb' 0 6
    let ARG54 := (ARG.extractLsb' 4 2).toNat
    let ARG32 := (ARG.extractLsb' 2 2).toNat
    let ARG10 := (ARG.extractLsb' 0 2).toNat
    ((decode w).instr? =
      if OP = 0x0 ∧ AX = 0 then some (.bitindex ARG54 ARG32 ARG10)
      else if OP = 0x1 ∧ AX = 0 then some (.pixmask ARG54 ARG32 ARG10)
      else if OP = 0x2 ∧ AX = 0 ∧ ARG.extractLsb' 2 4 = 0 then some (.levelmask ARG10)
      else if OP = 0x3 ∧ AX = 0 ∧ ARG.extractLsb' 4 2 = 0 then some (.columnmask (ARG.extractLsb' 0 4).toNat)
      else if OP = 0x4 ∧ AX = 0 ∧ ARG.extractLsb' 2 4 = 0 then some (.slicemaskX ARG10)
      else if OP = 0x4 ∧ AX = 1 ∧ ARG.extractLsb' 2 4 = 0 then some (.slicemaskY ARG10)
      else if OP = 0x4 ∧ AX = 2 ∧ ARG.extractLsb' 2 4 = 0 then some (.slicemaskZ ARG10)
      else if OP = 0x5 ∧ AX = 0 ∧ ARG = 0 then some .shiftX
      else if OP = 0x5 ∧ AX = 1 ∧ ARG = 0 then some .shiftY
      else if OP = 0x5 ∧ AX = 2 ∧ ARG = 0 then some .shiftZ
      else if OP = 0x6 ∧ AX = 0 ∧ ARG = 0 then some .unshiftX
      else if OP = 0x6 ∧ AX = 1 ∧ ARG = 0 then some .unshiftY
      else if OP = 0x6 ∧ AX = 2 ∧ ARG = 0 then some .unshiftZ
      else if OP = 0x7 ∧ AX = 0 ∧ ARG.extractLsb' 2 4 = 0 then some (.lvlslice ARG10)
      else if OP = 0x8 ∧ AX = 0 ∧ ARG = 0 then some .statemask
      else none) ∧
    rowsMatching w = ((decode w).instr?.map Instr.mnemonic).toList

/-- R82: 171 legal words, 3925 illegal ones, and the count of each operation. -/
def Obligations.LegalWordCounts : Prop :=
  let words := (List.range 4096).map (BitVec.ofNat 12)
  let count (names : List String) : Nat :=
    (words.filter fun w => ((decode w).instr?.map fun i => names.contains i.mnemonic).getD false).length
  (words.filter fun w => legal w).length = 171 ∧ (words.filter fun w => !legal w).length = 3925 ∧
    count ["BITINDEX"] = 64 ∧ count ["PIXMASK"] = 64 ∧ count ["LEVELMASK"] = 4 ∧ count ["COLUMNMASK"] = 16 ∧
    count ["SLICEMASK.X", "SLICEMASK.Y", "SLICEMASK.Z"] = 12 ∧ count ["SHIFT.X", "SHIFT.Y", "SHIFT.Z"] = 3 ∧
    count ["UNSHIFT.X", "UNSHIFT.Y", "UNSHIFT.Z"] = 3 ∧ count ["LVLSLICE"] = 4 ∧ count ["STATEMASK"] = 1

/-- Words written out bit by bit from the encodings of the spec, one for each of R71's nine operations (a sanity
statement). -/
def Obligations.WordsOfTheSpecDecode : Prop :=
  decode 0b0000_00_01_10_11#12 = .legal (.bitindex 1 2 3) ∧ decode 0b0001_00_01_00_00#12 = .legal (.pixmask 1 0 0) ∧
    decode 0b0010_00_0000_10#12 = .legal (.levelmask 2) ∧ decode 0b0011_00_00_0101#12 = .legal (.columnmask 5) ∧
    decode 0b0100_01_0000_11#12 = .legal (.slicemaskY 3) ∧
    decode 0b0101_10_000000#12 = .legal .shiftZ ∧ decode 0b0110_01_000000#12 = .legal .unshiftY ∧
    decode 0b0111_00_0000_11#12 = .legal (.lvlslice 3) ∧ decode 0b1000_00_000000#12 = .legal .statemask

/-- R85: which words are illegal, what they output, and that they do nothing else: the driver steps as it would with any
other word. Every legal word outputs `illegal` = 0. -/
def Obligations.IllegalWordOutputsZeroAndFlag : Prop :=
  (∀ w : OpWord, legal w = false ↔
    0x9 ≤ (opField w).toNat ∨
    (opField w = 0x4 ∨ opField w = 0x5 ∨ opField w = 0x6) ∧ axField w = 0b11 ∨
    ((opField w).toNat ≤ 0x3 ∨ opField w = 0x7 ∨ opField w = 0x8) ∧ axField w ≠ 0b00 ∨
    (opField w = 0x2 ∨ opField w = 0x4 ∨ opField w = 0x7) ∧ (argField w).extractLsb' 2 4 ≠ 0 ∨
    opField w = 0x3 ∧ (argField w).extractLsb' 4 2 ≠ 0 ∨
    (opField w = 0x5 ∨ opField w = 0x6 ∨ opField w = 0x8) ∧ argField w ≠ 0) ∧
  (∀ s : State, Stable s → legal (nextInputs s).opw = false →
    step s = .next (clockEdge { present s with rOut := 0x0000_0000_0000_0000, illegal := true })) ∧
  (∀ s : State, Stable s → legal (nextInputs s).opw = true →
    ∃ t, step s = .next t ∧ t.illegal = false ∧ t.driver = (clockEdge (present s)).driver)

/-! ## The step -/

/-- When the word presented on `opw` decodes to i, the step is exec of i at the state with the new inputs on its ports,
followed by the clock edge if the presentation ends in one (R100, R174; Log 7). -/
def Obligations.StepRunsThePresentedOperation : Prop :=
  ∀ (s t : State) (i : Instr), Stable s → decode (nextInputs s).opw = .legal i → exec i (present s) = .next t →
    step s = .next (clockEdge t)

/-- The machine never stops of itself: a step goes on exactly when the driver's inputs are stable around the edge, and is
refused by name otherwise (R208, R230; R267 and 93_implementation_defined.md row 14, the model's refusal, Log 8). -/
def Obligations.StepStopsOnlyOnUnstableInputs : Prop :=
  ∀ s : State, (Stable s → ∃ t, step s = .next t) ∧
    ((nextInputs s).clk = true → (nextInputs s).stable = false → step s = .refused .unsynchronisedInputs)

/-! ## The codec's operations (40_codec.md) -/

/-- R102. -/
def Obligations.BitindexGivesTheIndex : Prop :=
  (∀ x y z : BitVec 2, decode (0b0000#4 ++ 0b00#2 ++ x ++ y ++ z) = .legal (.bitindex x.toNat y.toNat z.toNat)) ∧
  (∀ (x y z : Nat) (s : State), x < 4 → y < 4 → z < 4 →
    exec (.bitindex x y z) s = .next (withResult s (BitVec.ofNat 64 (16 * x + 4 * y + z))) ∧ 16 * x + 4 * y + z < 64) ∧
  (∀ (x y z : Nat) (s t : State), exec (.bitindex x y z) s = .next t → t.rOut.extractLsb' 6 58 = 0) ∧
  (∀ s : State, exec (.bitindex 0 0 0) s = .next (withResult s 0) ∧ exec (.bitindex 3 3 3) s = .next (withResult s 63)) ∧
  decode 0x01B#12 = .legal (.bitindex 1 2 3) ∧ ∀ s : State, exec (.bitindex 1 2 3) s = .next (withResult s 0x1B)

/-- R104. -/
def Obligations.PixmaskGivesOneBit : Prop :=
  (∀ x y z : BitVec 2, decode (0b0001#4 ++ 0b00#2 ++ x ++ y ++ z) = .legal (.pixmask x.toNat y.toNat z.toNat)) ∧
  (∀ (x y z : Nat) (s : State), x < 4 → y < 4 → z < 4 →
    exec (.pixmask x y z) s = .next (withResult s (1#64 <<< (16 * x + 4 * y + z)))) ∧
  (∀ (x y z : Nat) (s t : State), exec (.pixmask x y z) s = .next t → litCount t.rOut = 1) ∧
  (∀ s : State, exec (.pixmask 3 3 3) s = .next (withResult s 0x8000_0000_0000_0000) ∧
    exec (.pixmask 0 0 0) s = .next (withResult s 0x1)) ∧
  decode 0x110#12 = .legal (.pixmask 1 0 0) ∧
    ∀ s : State, exec (.pixmask 1 0 0) s = .next (withResult s 0x0000_0000_0001_0000)

/-- R106. -/
def Obligations.LevelmaskGivesTheLevel : Prop :=
  (∀ l : BitVec 2, decode (0b0010#4 ++ 0b00#2 ++ 0b0000#4 ++ l) = .legal (.levelmask l.toNat)) ∧
  (∀ (l : Nat) (s : State), l < 4 →
    exec (.levelmask l) s = .next (withResult s (0x1111_1111_1111_1111#64 <<< l))) ∧
  (∀ s : State, exec (.levelmask 0) s = .next (withResult s 0x1111_1111_1111_1111) ∧
    exec (.levelmask 1) s = .next (withResult s 0x2222_2222_2222_2222) ∧
    exec (.levelmask 2) s = .next (withResult s 0x4444_4444_4444_4444) ∧
    exec (.levelmask 3) s = .next (withResult s 0x8888_8888_8888_8888)) ∧
  (∀ (l : Nat) (s t : State), l < 4 → exec (.levelmask l) s = .next t →
    litCount t.rOut = 16 ∧ ∀ c m, c < 16 → m < 4 → t.rOut.getLsbD (4 * c + m) = decide (m = l)) ∧
  decode 0x202#12 = .legal (.levelmask 2)

/-- R108, with the value for every column. -/
def Obligations.ColumnmaskGivesTheNibble : Prop :=
  (∀ c : BitVec 4, decode (0b0011#4 ++ 0b00#2 ++ 0b00#2 ++ c) = .legal (.columnmask c.toNat)) ∧
  (∀ (c : Nat) (s : State), c < 16 → exec (.columnmask c) s = .next (withResult s (0xF#64 <<< (4 * c)))) ∧
  (List.range 16).map columnMask =
    [0x0000_0000_0000_000F, 0x0000_0000_0000_00F0, 0x0000_0000_0000_0F00, 0x0000_0000_0000_F000,
     0x0000_0000_000F_0000, 0x0000_0000_00F0_0000, 0x0000_0000_0F00_0000, 0x0000_0000_F000_0000,
     0x0000_000F_0000_0000, 0x0000_00F0_0000_0000, 0x0000_0F00_0000_0000, 0x0000_F000_0000_0000,
     0x000F_0000_0000_0000, 0x00F0_0000_0000_0000, 0x0F00_0000_0000_0000, 0xF000_0000_0000_0000] ∧
  (∀ x y z c, x < 4 → y < 4 → z < 4 → c < 16 →
    ((columnMask c).getLsbD (16 * x + 4 * y + z) = true ↔ x = c / 4 ∧ y = c % 4)) ∧
  decode 0x305#12 = .legal (.columnmask 5) ∧
    ∀ s : State, exec (.columnmask 5) s = .next (withResult s 0x0000_0000_00F0_0000)

/-- R116, R118, R120. -/
def Obligations.SlicemaskGivesThePlane : Prop :=
  (∀ k : BitVec 2, decode (0b0100#4 ++ 0b00#2 ++ 0b0000#4 ++ k) = .legal (.slicemaskX k.toNat) ∧
    decode (0b0100#4 ++ 0b01#2 ++ 0b0000#4 ++ k) = .legal (.slicemaskY k.toNat) ∧
    decode (0b0100#4 ++ 0b10#2 ++ 0b0000#4 ++ k) = .legal (.slicemaskZ k.toNat)) ∧
  (∀ (k : Nat) (s : State), k < 4 →
    exec (.slicemaskX k) s = .next (withResult s (0xFFFF#64 <<< (16 * k))) ∧
    exec (.slicemaskY k) s = .next (withResult s (0x000F_000F_000F_000F#64 <<< (4 * k))) ∧
    exec (.slicemaskZ k) s = .next (withResult s (0x1111_1111_1111_1111#64 <<< k)) ∧
    exec (.slicemaskZ k) s = exec (.levelmask k) s) ∧
  (∀ k c z, k < 4 → c < 16 → z < 4 →
    ((axisSliceMask .x k).getLsbD (4 * c + z) = true ↔ 4 * k ≤ c ∧ c ≤ 4 * k + 3) ∧
    ((axisSliceMask .y k).getLsbD (4 * c + z) = true ↔ c = k ∨ c = k + 4 ∨ c = k + 8 ∨ c = k + 12)) ∧
  decode 0x401#12 = .legal (.slicemaskX 1) ∧ decode 0x443#12 = .legal (.slicemaskY 3) ∧
  decode 0x480#12 = .legal (.slicemaskZ 0) ∧
  ∀ s : State, exec (.slicemaskX 1) s = .next (withResult s 0x0000_0000_FFFF_0000) ∧
    exec (.slicemaskY 3) s = .next (withResult s 0xF000_F000_F000_F000) ∧
    exec (.slicemaskZ 0) s = .next (withResult s 0x1111_1111_1111_1111)

/-- R124 and R126: the result is in column order and does not depend on SHIFT_ORDER. -/
def Obligations.LvlsliceExtractsTheLevel : Prop :=
  (∀ l : BitVec 2, decode (0b0111#4 ++ 0b00#2 ++ 0b0000#4 ++ l) = .legal (.lvlslice l.toNat)) ∧
  (∀ (l : Nat) (s : State), l < 4 →
    ∃ v : LedState, exec (.lvlslice l) s = .next (withResult s v) ∧ v = (levelSlice s.ports.sIn l).setWidth 64 ∧
      (∀ c, c < 16 → v.getLsbD c = s.ports.sIn.getLsbD (4 * c + l)) ∧ ∀ n, 16 ≤ n → v.getLsbD n = false) ∧
  (∀ (l : Nat) (s : State), s.ports.sIn = 0 → exec (.lvlslice l) s = .next (withResult s 0)) ∧
  (∀ (l : Nat) (s : State), s.ports.sIn = 0xFFFF_FFFF_FFFF_FFFF → exec (.lvlslice l) s = .next (withResult s 0xFFFF)) ∧
  ∀ s : State, s.ports.sIn = 0x8000_0000_0000_0001 → exec (.lvlslice 3) s = .next (withResult s 0x8000)

/-- R128. -/
def Obligations.StatemaskGivesAllOnes : Prop :=
  decode (0b1000#4 ++ 0b00#2 ++ 0b000000#6) = .legal .statemask ∧ decode 0x800#12 = .legal .statemask ∧
  ∀ s : State, exec .statemask s = .next (withResult s 0xFFFF_FFFF_FFFF_FFFF)

/-! ## The transforms' operations (41_transform.md) -/

/-- R142, R143, R144. -/
def Obligations.ShiftMovesTowardIncreasing : Prop :=
  decode (0b0101#4 ++ 0b00#2 ++ 0b000000#6) = .legal .shiftX ∧ decode (0b0101#4 ++ 0b01#2 ++ 0b000000#6) = .legal .shiftY ∧
  decode (0b0101#4 ++ 0b10#2 ++ 0b000000#6) = .legal .shiftZ ∧
  (∀ s : State,
    exec .shiftX s = .next (withResult s ((s.ports.sIn <<< 16) &&& 0xFFFF_FFFF_FFFF_0000)) ∧
    exec .shiftY s = .next (withResult s ((s.ports.sIn <<< 4) &&& 0xFFF0_FFF0_FFF0_FFF0)) ∧
    exec .shiftZ s = .next (withResult s ((s.ports.sIn <<< 1) &&& 0xEEEE_EEEE_EEEE_EEEE))) ∧
  (∀ s : State,
    (s.ports.sIn = 0xFFFF_0000_0000_0000 → exec .shiftX s = .next (withResult s 0)) ∧
    (s.ports.sIn = 0xF000_F000_F000_F000 → exec .shiftY s = .next (withResult s 0)) ∧
    (s.ports.sIn = 0x8888_8888_8888_8888 → exec .shiftZ s = .next (withResult s 0)) ∧
    (s.ports.sIn = 0x1 → exec .shiftX s = .next (withResult s 0x0000_0000_0001_0000) ∧
      exec .shiftY s = .next (withResult s 0x10) ∧ exec .shiftZ s = .next (withResult s 0x2)))

/-- R145, R146, R147. -/
def Obligations.UnshiftMovesTowardDecreasing : Prop :=
  decode (0b0110#4 ++ 0b00#2 ++ 0b000000#6) = .legal .unshiftX ∧
  decode (0b0110#4 ++ 0b01#2 ++ 0b000000#6) = .legal .unshiftY ∧
  decode (0b0110#4 ++ 0b10#2 ++ 0b000000#6) = .legal .unshiftZ ∧
  (∀ s : State,
    exec .unshiftX s = .next (withResult s ((s.ports.sIn >>> 16) &&& 0x0000_FFFF_FFFF_FFFF)) ∧
    exec .unshiftY s = .next (withResult s ((s.ports.sIn >>> 4) &&& 0x0FFF_0FFF_0FFF_0FFF)) ∧
    exec .unshiftZ s = .next (withResult s ((s.ports.sIn >>> 1) &&& 0x7777_7777_7777_7777))) ∧
  (∀ s : State,
    (s.ports.sIn = 0x0000_0000_0000_FFFF → exec .unshiftX s = .next (withResult s 0)) ∧
    (s.ports.sIn = 0x000F_000F_000F_000F → exec .unshiftY s = .next (withResult s 0)) ∧
    (s.ports.sIn = 0x1111_1111_1111_1111 → exec .unshiftZ s = .next (withResult s 0)) ∧
    (s.ports.sIn = 0x8000_0000_0000_0000 → exec .unshiftX s = .next (withResult s 0x0000_8000_0000_0000) ∧
      exec .unshiftY s = .next (withResult s 0x0800_0000_0000_0000) ∧
      exec .unshiftZ s = .next (withResult s 0x4000_0000_0000_0000)))

/-! ## The operations as one unit -/

/-- The meanings, written with word arithmetic, are equal to the rules' per-LED forms for every instruction and every
operand, in range or masked to its field (R80; Log 9), and change nothing but the unit's two outputs (R27, R101, R102, R112,
R148). -/
def Obligations.OperationsMeanTheirPerLedForm : Prop :=
  ∀ (i : Instr) (s : State), ∃ v : LedState, exec i s = .next (withResult s v) ∧
    ∀ n, n < 64 → v.getLsbD n = resultBit i s.ports.sIn n

/-- R100: after every step the outputs are the pure function of the word and the operand presented in it. -/
def Obligations.StepOutputsAreThePureFunction : Prop :=
  ∀ s t : State, step s = .next t → t.ports = nextInputs s ∧ (t.rOut, t.illegal) = opUnit t.ports.opw t.ports.sIn

/-- R80: a word cannot hold an operand out of range, and wider operands are masked. -/
def Obligations.OperandsOutOfRangeAreMasked : Prop :=
  (∀ (w : OpWord) (i : Instr), decode w = .legal i → i.wf = true) ∧
  (∀ (i : Instr) (s : State), exec i s = exec (maskOperands i) s) ∧
  (∀ i : Instr, (maskOperands i).wf = true ∧ encode (maskOperands i) = encode i) ∧
  ∀ i : Instr, i.wf = true → maskOperands i = i

/-- The operations that do not read `s_in` do not depend on it, and no operation depends on anything else: two states that
agree on `s_in`, where it is read, give the same result (R79). -/
def Obligations.OperationsDependOnSInOnly : Prop :=
  ∀ (i : Instr) (s s' t t' : State), exec i s = .next t → exec i s' = .next t' →
    (readsSIn i = true → s.ports.sIn = s'.ports.sIn) → t.rOut = t'.rOut ∧ t.illegal = t'.illegal

/-- R62: evaluating an operation twice, or writing `cur` twice, is as once; a sample does not change `cur`. -/
def Obligations.EvaluationAndWritesAreIdempotent : Prop :=
  (∀ (i : Instr) (s t : State), exec i s = .next t → exec i t = .next t) ∧
  (∀ (o : ShiftOrder) (d : Driver) (i : PortInputs), i.rst = false → i.curWe = true →
    (driverNext o (driverNext o d i) i).cur = (driverNext o d i).cur) ∧
  ∀ (o : ShiftOrder) (d : Driver) (i : PortInputs), i.rst = false → i.curWe = false → (driverNext o d i).cur = d.cur

/-! ## Laws of the codec -/

/-- R21 and R103: bitIndex is a bijection between the 64 triples and 0..63, with the reverse map of R21; column c is
nibble c. -/
def Obligations.BitIndexIsABijection : Prop :=
  (∀ x y z, x < 4 → y < 4 → z < 4 →
    bitIndex x y z < 64 ∧ indexX (bitIndex x y z) = x ∧ indexY (bitIndex x y z) = y ∧ indexZ (bitIndex x y z) = z ∧
    indexColumn (bitIndex x y z) = columnOf x y ∧ columnOf x y = 4 * x + y ∧ bitIndex x y z = 4 * columnOf x y + z) ∧
  ∀ i, i < 64 → bitIndex (indexX i) (indexY i) (indexZ i) = i ∧ indexX i < 4 ∧ indexY i < 4 ∧ indexZ i < 4

/-- R101: every mask is the parametric derivation from L, evaluated at L = 4. -/
def Obligations.MasksAreTheParametricDerivation : Prop :=
  ledStateMask = BitVec.ofNat 64 (genStateMask 4) ∧
  (∀ l, l < 4 → levelMask l = BitVec.ofNat 64 (genLevelMask 4 l)) ∧
  (∀ c, c < 16 → columnMask c = BitVec.ofNat 64 (genColumnMask 4 c)) ∧
  (∀ a k, k < 4 → axisSliceMask a k = BitVec.ofNat 64 (genAxisSliceMask 4 a k)) ∧
  ∀ L k, genAxisSliceMask L .z k = genLevelMask L k

/-- R107 and R109: the level masks partition the word, the column masks partition the word, and a level and a column meet
in exactly one LED. -/
def Obligations.LevelAndColumnMasksPartition : Prop :=
  levelMask 0 ||| levelMask 1 ||| levelMask 2 ||| levelMask 3 = ledStateMask ∧
  (∀ i j, i < 4 → j < 4 → i ≠ j → levelMask i &&& levelMask j = 0) ∧
  ((List.range 16).map columnMask).foldr (· ||| ·) 0 = ledStateMask ∧
  (∀ i j, i < 16 → j < 16 → i ≠ j → columnMask i &&& columnMask j = 0) ∧
  ∀ c l, c < 16 → l < 4 → levelMask l &&& columnMask c = 1#64 <<< (4 * c + l)

/-- R122. -/
def Obligations.AxisSliceMasksPartition : Prop :=
  ∀ a : Axis, axisSliceMask a 0 ||| axisSliceMask a 1 ||| axisSliceMask a 2 ||| axisSliceMask a 3 = ledStateMask ∧
    ∀ i j, i < 4 → j < 4 → i ≠ j → axisSliceMask a i &&& axisSliceMask a j = 0

/-- R114: which LEDs an axis slice selects, the table's values, the closed forms, and 16 bits in each. -/
def Obligations.AxisSliceMaskSelectsThePlane : Prop :=
  (∀ a k n, k < 4 → n < 64 → (axisSliceMask a k).getLsbD n = decide (axisCoord a n = k)) ∧
  (∀ a k, k < 4 → litCount (axisSliceMask a k) = 16) ∧
  (∀ k, k < 4 → axisSliceMask .x k = 0xFFFF#64 <<< (16 * k) ∧
    axisSliceMask .y k = 0x000F_000F_000F_000F#64 <<< (4 * k) ∧
    axisSliceMask .z k = 0x1111_1111_1111_1111#64 <<< k) ∧
  (List.range 4).map (axisSliceMask .x) =
    [0x0000_0000_0000_FFFF, 0x0000_0000_FFFF_0000, 0x0000_FFFF_0000_0000, 0xFFFF_0000_0000_0000] ∧
  (List.range 4).map (axisSliceMask .y) =
    [0x000F_000F_000F_000F, 0x00F0_00F0_00F0_00F0, 0x0F00_0F00_0F00_0F00, 0xF000_F000_F000_F000] ∧
  (List.range 4).map (axisSliceMask .z) =
    [0x1111_1111_1111_1111, 0x2222_2222_2222_2222, 0x4444_4444_4444_4444, 0x8888_8888_8888_8888]

/-- R112, both forms. -/
def Obligations.LevelSliceReadsTheColumns : Prop :=
  ∀ (s : LedState) (l c : Nat), l < 4 → c < 16 →
    (levelSlice s l).getLsbD c = s.getLsbD (4 * c + l) ∧
    (levelSlice s l).getLsbD c = decide (s &&& levelMask l &&& columnMask c ≠ 0)

/-! ## Laws of the transforms -/

/-- R148: what the transforms do to each LED, and the equivalent word forms. -/
def Obligations.TransformsMoveEachLed : Prop :=
  (∀ (s : LedState) (a : Axis) (x y z : Nat), x < 4 → y < 4 → z < 4 →
    (shiftAxis s a).getLsbD (16 * x + 4 * y + z) = shiftedLed s a x y z ∧
    (unshiftAxis s a).getLsbD (16 * x + 4 * y + z) = unshiftedLed s a x y z) ∧
  ∀ (s : LedState) (a : Axis), shiftAxis s a = (s &&& ~~~ axisSliceMask a 3) <<< stride a ∧
    unshiftAxis s a = (s &&& ~~~ axisSliceMask a 0) >>> stride a

/-- R149: the round trips drop exactly the edge slice, and neither is the identity. -/
def Obligations.TransformRoundTrips : Prop :=
  (∀ (s : LedState) (a : Axis), unshiftAxis (shiftAxis s a) a = s &&& ~~~ axisSliceMask a 3 ∧
    shiftAxis (unshiftAxis s a) a = s &&& ~~~ axisSliceMask a 0) ∧
  ∀ a : Axis, (∃ s, unshiftAxis (shiftAxis s a) a ≠ s) ∧ ∃ s, shiftAxis (unshiftAxis s a) a ≠ s

/-- R151: distinct axes commute; on one axis shift and unshift do not. -/
def Obligations.TransformsOnDistinctAxesCommute : Prop :=
  (∀ (s : LedState) (a b : Axis), a ≠ b →
    shiftAxis (shiftAxis s a) b = shiftAxis (shiftAxis s b) a ∧
    unshiftAxis (unshiftAxis s a) b = unshiftAxis (unshiftAxis s b) a ∧
    shiftAxis (unshiftAxis s a) b = unshiftAxis (shiftAxis s b) a) ∧
  ∀ a : Axis, ∃ s, shiftAxis (unshiftAxis s a) a ≠ unshiftAxis (shiftAxis s a) a

/-- R152. -/
def Obligations.FourTransformsGiveZero : Prop :=
  ∀ (s : LedState) (a : Axis),
    shiftAxis (shiftAxis (shiftAxis (shiftAxis s a) a) a) a = 0 ∧
    unshiftAxis (unshiftAxis (unshiftAxis (unshiftAxis s a) a) a) a = 0 ∧
    litCount (shiftAxis s a) ≤ litCount s ∧ litCount (unshiftAxis s a) ≤ litCount s ∧
    shiftAxis 0 a = 0 ∧ unshiftAxis 0 a = 0

/-! ## Reset and the write port -/

/-- R260 and R41: one edge with `rst` = 1 gives every register its reset value, from any state (R263: the state before the
first reset is any state), whatever `tick`, `cur_we` and `cur_d` are. -/
def Obligations.ResetEdgeLoadsEveryRegister : Prop :=
  ∀ (s : State) (i : PortInputs), Edge s i → i.rst = true → ∃ t, step s = .next t ∧
    t.driver.cur = 0x0000_0000_0000_0000 ∧ t.driver.frm = 0x0000_0000_0000_0000 ∧ t.driver.lvl = 0 ∧
    t.driver.sl = 0x0000 ∧ t.driver.st = .blank ∧ t.driver.bc = 0 ∧ t.driver.ph = false ∧ t.driver.ovr = false ∧
    t.driver.ser = false ∧ t.driver.srclk = false ∧ t.driver.rclk = false ∧ t.driver.oeN = true ∧
    t.driver.cath = 0b0000

/-- State.reset is such a state: it is what a reset edge leaves of a machine before its first reset, whatever its registers
and outputs are (R41, R260, R263). The operation word and operand on the ports are the model's choice (Log 5), the chain's
contents are the model's choice (Log 4), the empty schedule is the model's choice (Log 2). -/
def Obligations.StateResetIsWhatAResetEdgeLeaves : Prop :=
  ∀ (d : Driver) (r : LedState) (ill : Bool),
    step (State.powerOn Build.default d { sr := 0, q := 0 } r ill
      [{ PortInputs.idle with clk := true, rst := true }]) = .next State.reset

/-- R52. -/
def Obligations.CurWritePort : Prop :=
  ∀ (s : State) (i : PortInputs), Edge s i → ∃ t, step s = .next t ∧
    (i.rst = true → t.driver.cur = 0) ∧
    (i.rst = false → i.curWe = true → t.driver.cur = i.curD) ∧
    (i.rst = false → i.curWe = false → t.driver.cur = s.driver.cur)

/-- R54 and R55: the sample at the edge that ends BLANK of level 0 takes the old `cur`, whatever is written at that edge; at
every other edge without reset `frm` is unchanged, and the driver does not read `cur`: with any other value there, every
register but `cur` is the same. -/
def Obligations.FrameSample : Prop :=
  (∀ (s : State) (i : PortInputs), Edge s i → i.rst = false → s.driver.st = .blank → s.driver.lvl = 0 →
    ∃ t, step s = .next t ∧ t.driver.frm = s.driver.cur ∧ t.driver.sl = levelSlice s.driver.cur 0 ∧
      t.driver.cur = if i.curWe then i.curD else s.driver.cur) ∧
  (∀ (s : State) (i : PortInputs), Edge s i → i.rst = false → ¬ (s.driver.st = .blank ∧ s.driver.lvl = 0) →
    ∃ t, step s = .next t ∧ t.driver.frm = s.driver.frm) ∧
  ∀ (o : ShiftOrder) (d : Driver) (v : LedState) (i : PortInputs), i.rst = false →
    ¬ (d.st = .blank ∧ d.lvl = 0) →
    driverNext o { d with cur := v } i = { driverNext o d i with cur := if i.curWe then i.curD else v }

/-! ## The driver, arm by arm (42_refresh_driver.md) -/

/-- R182 (and the BLANK arm of R180): every register after a BLANK cycle. -/
def Obligations.BlankSelectsTheLevelSlice : Prop :=
  ∀ (s : State) (i : PortInputs), Edge s i → i.rst = false → s.driver.st = .blank →
    ∃ t, step s = .next t ∧
      let src := if s.driver.lvl = 0 then s.driver.cur else s.driver.frm
      t.driver =
        { cur := if i.curWe then i.curD else s.driver.cur
          frm := src
          lvl := s.driver.lvl
          sl := levelSlice src s.driver.lvl.toNat
          st := .shift
          bc := 0
          ph := false
          ovr := s.driver.ovr || i.tick
          ser := (levelSlice src s.driver.lvl.toNat).getLsbD
            (match s.build.shiftOrder with | .msbFirst => 15 | .lsbFirst => 0)
          srclk := false
          rclk := false
          oeN := true
          cath := 0b0000 }

/-- R185 and R187: the three edges of SHIFT, every register; what each does to the chain, whose shift direction is R200's
(Log 4, PRESUMED): where SRCLK was 0 its rising edge shifts SER in, and where RCLK was 0 its rising edge transfers the shift
stage to the output stage; and, in a state reachable from reset, SRCLK is 0 and SER holds bit bc before the one edge, and
RCLK is 0 before the other. -/
def Obligations.ShiftPhases : Prop :=
  ∀ (s : State) (i : PortInputs), Edge s i → i.rst = false → s.driver.st = .shift →
    ∃ t, step s = .next t ∧
      t.driver.cur = (if i.curWe then i.curD else s.driver.cur) ∧ t.driver.ovr = (s.driver.ovr || i.tick) ∧
      t.driver.frm = s.driver.frm ∧ t.driver.lvl = s.driver.lvl ∧ t.driver.sl = s.driver.sl ∧
      t.driver.oeN = s.driver.oeN ∧ t.driver.cath = s.driver.cath ∧
      (s.driver.ph = false →
        t.driver.st = .shift ∧ t.driver.bc = s.driver.bc ∧ t.driver.ph = true ∧ t.driver.ser = s.driver.ser ∧
        t.driver.srclk = true ∧ t.driver.rclk = s.driver.rclk ∧ t.chain.q = s.chain.q ∧
        (s.driver.srclk = false →
          t.chain.sr = s.chain.sr.extractLsb' 0 15 ++ BitVec.ofBool s.driver.ser)) ∧
      (s.driver.ph = true → s.driver.bc.toNat < 15 →
        t.driver.st = .shift ∧ t.driver.bc = s.driver.bc + 1 ∧ t.driver.ph = false ∧
        t.driver.ser = s.driver.sl.getLsbD (match s.build.shiftOrder with
          | .msbFirst => 15 - (s.driver.bc.toNat + 1)
          | .lsbFirst => s.driver.bc.toNat + 1) ∧
        t.driver.srclk = false ∧ t.driver.rclk = s.driver.rclk ∧ t.chain = s.chain) ∧
      (s.driver.ph = true → s.driver.bc = 15 →
        t.driver.st = .latch ∧ t.driver.bc = 15 ∧ t.driver.ph = false ∧ t.driver.ser = false ∧
        t.driver.srclk = false ∧ t.driver.rclk = true ∧ t.chain.sr = s.chain.sr ∧
        (s.driver.rclk = false → t.chain.q = s.chain.sr)) ∧
      (Reachable s → s.driver.rclk = false ∧ s.driver.srclk = s.driver.ph ∧
        s.driver.ser = s.driver.sl.getLsbD (order s.build.shiftOrder s.driver.bc.toNat))

/-- R188: every register after a LATCH cycle. -/
def Obligations.LatchLightsTheLevel : Prop :=
  ∀ (s : State) (i : PortInputs), Edge s i → i.rst = false → s.driver.st = .latch →
    ∃ t, step s = .next t ∧
      t.driver =
        { s.driver with
          cur := if i.curWe then i.curD else s.driver.cur
          ovr := s.driver.ovr || i.tick
          st := .enable
          rclk := false
          oeN := false
          cath := 1#4 <<< s.driver.lvl.toNat }

/-- R186: without a tick nothing changes but `cur` through its port; a tick ends the time slice, at that same edge. -/
def Obligations.EnableHoldsUntilTick : Prop :=
  ∀ (s : State) (i : PortInputs), Edge s i → i.rst = false → s.driver.st = .enable →
    ∃ t, step s = .next t ∧
      (i.tick = false → t.driver = { s.driver with cur := if i.curWe then i.curD else s.driver.cur }) ∧
      (i.tick = true → t.driver.lvl.toNat = (s.driver.lvl.toNat + 1) % 4 ∧
        t.driver =
          { s.driver with
            cur := if i.curWe then i.curD else s.driver.cur
            lvl := s.driver.lvl + 1
            st := .blank
            oeN := true
            cath := 0b0000 })

/-- R234 (and R176): a tick outside ENABLE sets `ovr` and does nothing else; otherwise `ovr` keeps its value; only reset
clears it. -/
def Obligations.OverrunFlagIsSticky : Prop :=
  (∀ (s : State) (i : PortInputs), Edge s i → i.rst = false → ∃ t, step s = .next t ∧
    (i.tick = true → s.driver.st ≠ .enable → t.driver.ovr = true) ∧
    (¬ (i.tick = true ∧ s.driver.st ≠ .enable) → t.driver.ovr = s.driver.ovr)) ∧
  (∀ (o : ShiftOrder) (d : Driver) (i : PortInputs), i.rst = false → i.tick = true → d.st ≠ .enable →
    driverNext o d i = { driverNext o d { i with tick := false } with ovr := true }) ∧
  ∀ s t : State, step s = .next t → s.driver.ovr = true → t.driver.ovr = false →
    (nextInputs s).clk = true ∧ (nextInputs s).rst = true

/-- R238: reset overrides everything; otherwise the write, the flag and the driver's arm take effect together, each reading
the registers before the edge. -/
def Obligations.SimultaneousInputs : Prop :=
  ∀ (s : State) (i : PortInputs), Edge s i → ∃ t, step s = .next t ∧
    (i.rst = true → t.driver = Driver.reset) ∧
    (i.rst = false →
      t.driver.cur = (if i.curWe then i.curD else s.driver.cur) ∧
      t.driver.ovr = (s.driver.ovr || (i.tick && decide (s.driver.st ≠ .enable))) ∧
      { t.driver with cur := s.driver.cur, ovr := s.driver.ovr } = driverArm s.build.shiftOrder s.driver i.tick) ∧
    (i.rst = false → s.driver.st = .blank → s.driver.lvl = 0 → i.curWe = true →
      t.driver.frm = s.driver.cur ∧ t.driver.cur = i.curD)

/-- R174 and R252: the driver's registers, its pins among them, change at a rising edge of clk only, and there by the step
rule; the build never changes (R38). -/
def Obligations.NoEdgeNoChange : Prop :=
  ∀ s t : State, step s = .next t → t.build = s.build ∧
    ((nextInputs s).clk = false → t.driver = s.driver ∧ t.chain = s.chain) ∧
    ((nextInputs s).clk = true → t.driver = driverNext s.build.shiftOrder s.driver (nextInputs s))

/-- R200, the reference chain (Log 4, PRESUMED): a rising edge of SRCLK shifts SER in and holds SER over it, a rising edge of
RCLK transfers the shift stage, and each stage holds at every other time; which LEDs are then lit. -/
def Obligations.ReferenceChainTransition : Prop :=
  ∀ s t : State, step s = .next t →
    (s.driver.srclk = false ∧ t.driver.srclk = true →
      t.chain.sr = s.chain.sr.extractLsb' 0 15 ++ BitVec.ofBool s.driver.ser ∧ t.driver.ser = s.driver.ser) ∧
    (¬ (s.driver.srclk = false ∧ t.driver.srclk = true) → t.chain.sr = s.chain.sr) ∧
    (s.driver.rclk = false ∧ t.driver.rclk = true → t.chain.q = s.chain.sr) ∧
    (¬ (s.driver.rclk = false ∧ t.driver.rclk = true) → t.chain.q = s.chain.q) ∧
    ∀ j l, lit t j l = true ↔
      t.driver.oeN = false ∧ t.driver.cath.getLsbD l = true ∧ t.chain.q.getLsbD j = true

/-- R24: the two units share no state. What the driver and the chain become does not depend on `opw`, `s_in` or the unit's
outputs; what the operation unit outputs does not depend on the driver or its inputs. -/
def Obligations.UnitsShareNoState : Prop :=
  ∀ s s' t t' : State, step s = .next t → step s' = .next t' →
    (s.build = s'.build → s.driver = s'.driver → s.chain = s'.chain →
      { nextInputs s with opw := 0, sIn := 0 } = { nextInputs s' with opw := 0, sIn := 0 } →
      t.driver = t'.driver ∧ t.chain = t'.chain) ∧
    ((nextInputs s).opw = (nextInputs s').opw → (nextInputs s).sIn = (nextInputs s').sIn →
      t.rOut = t'.rOut ∧ t.illegal = t'.illegal)

/-! ## Invariants of the display -/

/-- Every step keeps the display's invariant: the pins are those of R190's row, the held slice is the held frame's, and the
reference chain (Log 4) has the bits sent so far (R56, R192, R200). -/
def Obligations.StepKeepsTheDisplayInvariant : Prop :=
  ∀ s t : State, DisplayInv s → step s = .next t → DisplayInv t

/-- Reset establishes the display's invariant, whatever the chain holds (R41, R200). -/
def Obligations.ResetHasTheDisplayInvariant : Prop :=
  DisplayInv State.reset ∧ ∀ s : State, s.driver = Driver.reset → DisplayInv s

/-- R192: in every state reachable from reset the pins are a function of (st, bc, ph, lvl, sl). -/
def Obligations.ReachablePinsAreTheRow : Prop :=
  ∀ s : State, Reachable s → pinsOf s.driver = expectedPins s.build.shiftOrder s.driver ∧
    (s.driver.ph = true → s.driver.st = .shift) ∧ s.driver.bc.toNat ≤ 15 ∧
    (s.driver.st = .latch ∨ s.driver.st = .enable → s.driver.bc = 15)

/-- R194: at most one cathode line is ever asserted, and one exactly in ENABLE. -/
def Obligations.AtMostOneCathode : Prop :=
  ∀ s : State, Reachable s →
    (s.driver.cath = 0b0000 ∨ s.driver.cath = onehot4 s.driver.lvl) ∧
    (s.driver.cath ≠ 0b0000 ↔ s.driver.st = .enable) ∧
    ∀ l m, s.driver.cath.getLsbD l = true → s.driver.cath.getLsbD m = true → l = m

/-- R195: OE_N = 0 exactly in ENABLE, every rising edge of SRCLK and RCLK is dark, and ENABLE is left through BLANK. -/
def Obligations.BlankingCoversTheChain : Prop :=
  ∀ s : State, Reachable s → (s.driver.oeN = false ↔ s.driver.st = .enable) ∧
    ∀ t : State, step s = .next t →
      (rises s.driver.srclk t.driver.srclk = true → s.driver.oeN = true ∧ t.driver.oeN = true) ∧
      (rises s.driver.rclk t.driver.rclk = true → s.driver.oeN = true ∧ t.driver.oeN = true) ∧
      (s.driver.st = .enable → t.driver.st ≠ .enable →
        t.driver.st = .blank ∧ t.driver.oeN = true ∧ t.driver.cath = 0b0000) ∧
      (t.driver.st = .enable → s.driver.st = .enable ∨ s.driver.st = .latch)

/-- R202, for the reference chain of R200 (Log 4): once latched the chain shows the held slice, mirrored for LSB_FIRST; in
ENABLE LED (column c, level l) is lit exactly where l is the active level and the held frame has that LED; outside ENABLE
nothing is lit. It rests on the chain of Log 4, which is PRESUMED. -/
def Obligations.DisplayShowsTheHeldFrame : Prop :=
  ∀ s : State, Reachable s →
    let shown (c : Nat) : Nat := match s.build.shiftOrder with | .msbFirst => c | .lsbFirst => 15 - c
    (s.driver.st = .latch ∨ s.driver.st = .enable →
      s.driver.sl = levelSlice s.driver.frm s.driver.lvl.toNat ∧
      ∀ j, j < 16 → s.chain.q.getLsbD j = s.driver.sl.getLsbD (shown j)) ∧
    (s.driver.st = .enable → ∀ c l, c < 16 → l < 4 →
      lit s c l = (decide (l = s.driver.lvl.toNat) && s.driver.frm.getLsbD (4 * shown c + l))) ∧
    (s.driver.st ≠ .enable → ∀ c l, lit s c l = false)

/-! ## Runs of the driver -/

/-- R190: from a BLANK cycle, without reset, cycle n has the row of the table, for any writes and for any ticks before
cycle 34; then ENABLE holds while no tick comes. The level is dark for exactly 34 cycles. -/
def Obligations.LevelTimeline : Prop :=
  (∀ (o : ShiftOrder) (d : Driver) (is : List PortInputs), PinsMatch o d → d.st = .blank → NoReset is →
    NoTick (is.drop 34) →
    pinsOf d = darkPins ∧
    (is ≠ [] →
      rowOf (driverRun o d is) = timelineRow o (blankSlice d) d.lvl is.length ∧
      (driverRun o d is).lvl = d.lvl ∧ (driverRun o d is).sl = blankSlice d ∧
      ((driverRun o d is).st = .enable ↔ 34 ≤ is.length) ∧
      ((driverRun o d is).oeN = true ↔ is.length < 34))) ∧
  ∀ (o : ShiftOrder) (d : Driver) (i : PortInputs), PinsMatch o d → d.st = .enable → i.rst = false → i.tick = true →
    PinsMatch o (driverNext o d i) ∧ (driverNext o d i).st = .blank ∧ (driverNext o d i).bc = 15 ∧
      (driverNext o d i).ph = false

/-- R89: for each level exactly 16 data bits, one for each rising edge of SRCLK, the k-th being sl[order(k)], and then one
rising edge of RCLK, right after the last of them. -/
def Obligations.SerialFrameOfALevel : Prop :=
  (∀ (o : ShiftOrder) (d : Driver) (is : List PortInputs), PinsMatch o d → d.st = .blank → NoReset is →
    is.length = 34 →
    (risesOf Driver.srclk (driverTrace o d is)).map Driver.ser =
      (List.range 16).map (fun k => (blankSlice d).getLsbD (order o k)) ∧
    risesOf Driver.rclk (driverTrace o d is) = [driverRun o d (is.take 33)] ∧
    risesOf Driver.srclk (driverTrace o (driverRun o d (is.take 32)) (is.drop 32)) = []) ∧
  ∀ k, k < 16 → order .msbFirst k = 15 - k ∧ order .lsbFirst k = k

/-- R56: every value of `frm` is a value that `cur` held during a whole cycle, which is a complete `cur_d` word or the reset
value; outside BLANK the slice comes from `frm`, and `frm` changes at the level-0 sample and at reset only, so the four
levels of one refresh cycle come from one `frm`. -/
def Obligations.FrameIsAWholeWrittenWord : Prop :=
  ∀ (o : ShiftOrder) (is : List PortInputs),
    (∃ pre, pre <+: is ∧ (driverRun o Driver.reset is).frm = (driverRun o Driver.reset pre).cur) ∧
    ((driverRun o Driver.reset is).frm = 0 ∨
      ∃ i ∈ is, i.curWe = true ∧ (driverRun o Driver.reset is).frm = i.curD) ∧
    FrameHeld (driverRun o Driver.reset is) ∧
    ∀ i : PortInputs, i.rst = false →
      ¬ ((driverRun o Driver.reset is).st = .blank ∧ (driverRun o Driver.reset is).lvl = 0) →
      (driverNext o (driverRun o Driver.reset is) i).frm = (driverRun o Driver.reset is).frm

/-- R57: `cur` is the last write, or what it was before; a sample returns exactly that, so of several writes between two
samples only the last is shown. -/
def Obligations.CurHoldsTheLastWrite : Prop :=
  ∀ (o : ShiftOrder) (d : Driver) (is : List PortInputs) (i : PortInputs), NoReset is → i.rst = false →
    (driverRun o d is).cur = ((is.filter fun j => j.curWe).getLast?.map PortInputs.curD).getD d.cur ∧
    ((driverRun o d is).st = .blank → (driverRun o d is).lvl = 0 →
      (driverNext o (driverRun o d is) i).frm =
        ((is.filter fun j => j.curWe).getLast?.map PortInputs.curD).getD d.cur)

/-- R261 and R264: after reset the driver enters ENABLE of level 0 at E34 and shows nothing, whatever is written; no tick of
E1 to E34 is accepted and each sets `ovr`; a tick at E35 is accepted. -/
def Obligations.StartAfterReset : Prop :=
  ∀ (o : ShiftOrder) (is : List PortInputs), NoReset is → is.length = 34 →
    let d := driverRun o Driver.reset is
    (d.st = .enable ∧ d.lvl = 0 ∧ d.frm = 0 ∧ d.sl = 0 ∧ d.oeN = false ∧ d.cath = 0b0001) ∧
    (∀ pre, pre <+: is → pre.length < 34 → (driverRun o Driver.reset pre).st ≠ .enable) ∧
    d.ovr = is.any (fun i => i.tick) ∧
    ∀ i : PortInputs, i.rst = false → i.tick = true →
      (driverNext o d i).st = .blank ∧ (driverNext o d i).lvl = 1 ∧ (driverNext o d i).ovr = d.ovr

/-- R198 and R272: where any two ticks are 35 or more edges apart, each is accepted, none sets `ovr`, and the levels follow
each other one per tick. -/
def Obligations.SpacedTicksAreAllAccepted : Prop :=
  ∀ (o : ShiftOrder) (d : Driver) (is : List PortInputs), d.st = .enable → NoReset is → TicksApart 35 is →
    (∀ (pre : List PortInputs) (i : PortInputs), pre ++ [i] <+: is → i.tick = true →
      (driverRun o d pre).st = .enable ∧ (driverRun o d (pre ++ [i])).st = .blank ∧
        (driverRun o d (pre ++ [i])).lvl = (driverRun o d pre).lvl + 1) ∧
    (driverRun o d is).ovr = d.ovr ∧
    (driverRun o d is).lvl = d.lvl + BitVec.ofNat 2 (is.filter fun i => i.tick).length

/-- R270: after an accepted tick the driver is not in ENABLE for the next 34 edges, so a tick at any of them is dropped and
sets `ovr`, and the level and the pins go on as without it; at the 35th it is accepted. -/
def Obligations.EarlyTickIsDropped : Prop :=
  ∀ (o : ShiftOrder) (d : Driver) (i j : PortInputs) (is : List PortInputs), d.st = .enable → i.rst = false →
    i.tick = true → j.rst = false → j.tick = true → NoReset is →
    let e := driverRun o (driverNext o d i) is
    (is.length < 34 → e.st ≠ .enable ∧
      driverNext o e j = { driverNext o e { j with tick := false } with ovr := true }) ∧
    (is.length = 34 → e.st = .enable ∧ e.lvl = d.lvl + 1 ∧ (driverNext o e j).lvl = d.lvl + 2 ∧
      (driverNext o e j).ovr = e.ovr)

/-- R206: without ticks the driver stays in ENABLE of the current level forever; only `cur` may change. -/
def Obligations.WithoutTicksEnableHolds : Prop :=
  ∀ (o : ShiftOrder) (d : Driver) (is : List PortInputs), d.st = .enable → NoReset is → NoTick is →
    driverRun o d is = { d with cur := (driverRun o d is).cur }

/-- R204, R272 and R274: the cycle counts of a level, and the least clock frequency at which no tick need be dropped and the
400 Hz target is met, for F_CLK in whole hertz (Log 13, the model's choice). -/
def Obligations.RateBound : Prop :=
  darkCycles = 34 ∧ minTickSpacing = 35 ∧
  (∀ T, minTickSpacing ≤ T → 1 ≤ litCycles T ∧ litCycles T + 34 = T ∧ refreshCycles T = 4 * T) ∧
  (∀ f T, 0 < T → (400 ≤ levelSwitchRate f T ↔ meetsRateTarget f T) ∧ (100 ≤ refreshRate f T ↔ meetsRateTarget f T)) ∧
  ∀ f T, minTickSpacing ≤ T → meetsRateTarget f T → 14000 ≤ f
end

