-- ==== Sys2Proof/Laws/Codec.lean ====
section
/-! SUPPORT. The codec's small lemmas: masked operands, and each mask and slice read bit by bit. -/

namespace Sys2Proof.Laws

open Sys2Proof.Machine Sys2Proof.Safety

theorem coord_lt (v : Nat) : coord v < 4 := Nat.mod_lt _ (by decide)
theorem column_lt (c : Nat) : column c < 16 := Nat.mod_lt _ (by decide)
@[simp] theorem coord_of_lt {v : Nat} (h : v < 4) : coord v = v := Nat.mod_eq_of_lt h
@[simp] theorem column_of_lt {c : Nat} (h : c < 16) : column c = c := Nat.mod_eq_of_lt h
@[simp] theorem coord_coord (v : Nat) : coord (coord v) = coord v := Nat.mod_mod _ _
@[simp] theorem column_column (c : Nat) : column (column c) = column c := Nat.mod_mod _ _

theorem bitIndex_lt (x y z : Nat) : bitIndex x y z < 64 := by
  have := coord_lt x
  have := coord_lt y
  have := coord_lt z
  unfold bitIndex
  omega

theorem axisCoord_lt (a : Axis) (n : Nat) : axisCoord a n < 4 := by
  cases a <;> simp [axisCoord, indexX, indexY, indexZ] <;> omega

theorem getLsbD_levelSlice (s : LedState) (l c : Nat) :
    (levelSlice s l).getLsbD c = (decide (c < 16) && s.getLsbD (4 * c + coord l)) := by
  simp only [levelSlice, BitVec.getLsbD_ofFnLE]
  split <;> simp_all

@[simp] theorem getLsbD_ledStateMask {n : Nat} (h : n < 64) : ledStateMask.getLsbD n = true := by
  revert n
  decide

/-- An axis slice mask, bit by bit (40_codec.md R114). -/
theorem getLsbD_axisSliceMask (a : Axis) (k : Nat) {n : Nat} (h : n < 64) :
    (axisSliceMask a k).getLsbD n = decide (axisCoord a n = coord k) := by
  have all : ∀ a : Axis, ∀ q : Fin 4, ∀ n : Fin 64,
      (axisSliceMask a q.val).getLsbD n.val = decide (axisCoord a n.val = coord q.val) := by
    intro a
    cases a <;> decide
  have masked : axisSliceMask a k = axisSliceMask a (coord k) := by cases a <;> simp [axisSliceMask]
  rw [masked, all a ⟨coord k, coord_lt k⟩ ⟨n, h⟩, coord_coord]

end Sys2Proof.Laws
end

