-- ==== Sys2Proof/Laws/Driver.lean ====
section
/-! SUPPORT. What one clock edge can do to the driver, said once; later proofs cite these instead of unfolding the step
rule (42_refresh_driver.md R180). -/

namespace Sys2Proof.Laws

open Sys2Proof.Machine

theorem driverNext_rst (o : ShiftOrder) (d : Driver) {i : PortInputs} (h : i.rst = true) :
    driverNext o d i = Driver.reset := by simp [driverNext, h]

theorem driverNext_run (o : ShiftOrder) (d : Driver) {i : PortInputs} (h : i.rst = false) :
    driverNext o d i = { driverArm o d i.tick with cur := curNext d i, ovr := ovrNext d i } := by
  simp [driverNext, h]

theorem driverArm_blank (o : ShiftOrder) {d : Driver} (t : Bool) (h : d.st = .blank) :
    driverArm o d t = blankArm o d := by simp [driverArm, h]

theorem driverArm_rise (o : ShiftOrder) {d : Driver} (t : Bool) (h : d.st = .shift) (p : d.ph = false) :
    driverArm o d t = shiftRise d := by simp [driverArm, h, shiftArm, p]

theorem driverArm_nextBit (o : ShiftOrder) {d : Driver} (t : Bool) (h : d.st = .shift) (p : d.ph = true)
    (b : d.bc ≠ 15) : driverArm o d t = shiftNextBit o d := by
  simp only [driverArm, h, shiftArm, p]
  exact if_pos b

theorem driverArm_toLatch (o : ShiftOrder) {d : Driver} (t : Bool) (h : d.st = .shift) (p : d.ph = true)
    (b : d.bc = 15) : driverArm o d t = shiftToLatch d := by simp [driverArm, h, shiftArm, p, b]

theorem driverArm_latch (o : ShiftOrder) {d : Driver} (t : Bool) (h : d.st = .latch) :
    driverArm o d t = latchArm d := by simp [driverArm, h]

theorem driverArm_enable_tick (o : ShiftOrder) {d : Driver} (h : d.st = .enable) :
    driverArm o d true = enableTick d := by simp [driverArm, h, enableArm]

theorem driverArm_enable_hold (o : ShiftOrder) {d : Driver} (h : d.st = .enable) : driverArm o d false = d := by
  simp [driverArm, h, enableArm]

/-- Everything a sequencing arm can be, with the guard under which it is. -/
theorem driverArm_cases (o : ShiftOrder) (d : Driver) (t : Bool) :
    (d.st = .blank ∧ driverArm o d t = blankArm o d) ∨
    (d.st = .shift ∧ d.ph = false ∧ driverArm o d t = shiftRise d) ∨
    (d.st = .shift ∧ d.ph = true ∧ d.bc ≠ 15 ∧ driverArm o d t = shiftNextBit o d) ∨
    (d.st = .shift ∧ d.ph = true ∧ d.bc = 15 ∧ driverArm o d t = shiftToLatch d) ∨
    (d.st = .latch ∧ driverArm o d t = latchArm d) ∨
    (d.st = .enable ∧ t = true ∧ driverArm o d t = enableTick d) ∨
    (d.st = .enable ∧ t = false ∧ driverArm o d t = d) := by
  cases h : d.st with
  | blank => exact .inl ⟨rfl, driverArm_blank o t h⟩
  | shift =>
    cases p : d.ph with
    | false => exact .inr (.inl ⟨rfl, rfl, driverArm_rise o t h p⟩)
    | true =>
      by_cases b : d.bc = 15
      · exact .inr (.inr (.inr (.inl ⟨rfl, rfl, b, driverArm_toLatch o t h p b⟩)))
      · exact .inr (.inr (.inl ⟨rfl, rfl, b, driverArm_nextBit o t h p b⟩))
  | latch => exact .inr (.inr (.inr (.inr (.inl ⟨rfl, driverArm_latch o t h⟩))))
  | enable =>
    cases t with
    | true => exact .inr (.inr (.inr (.inr (.inr (.inl ⟨rfl, rfl, driverArm_enable_tick o h⟩)))))
    | false => exact .inr (.inr (.inr (.inr (.inr (.inr ⟨rfl, rfl, driverArm_enable_hold o h⟩)))))

/-- No arm writes `cur` (20_memory.md R52). -/
@[simp] theorem driverArm_cur (o : ShiftOrder) (d : Driver) (t : Bool) : (driverArm o d t).cur = d.cur := by
  obtain ⟨_, h⟩ | ⟨_, _, h⟩ | ⟨_, _, _, h⟩ | ⟨_, _, _, h⟩ | ⟨_, h⟩ | ⟨_, _, h⟩ | ⟨_, _, h⟩ :=
    driverArm_cases o d t <;> rw [h] <;> rfl

/-- No arm writes `ovr` (60_exceptions.md R234). -/
@[simp] theorem driverArm_ovr (o : ShiftOrder) (d : Driver) (t : Bool) : (driverArm o d t).ovr = d.ovr := by
  obtain ⟨_, h⟩ | ⟨_, _, h⟩ | ⟨_, _, _, h⟩ | ⟨_, _, _, h⟩ | ⟨_, h⟩ | ⟨_, _, h⟩ | ⟨_, _, h⟩ :=
    driverArm_cases o d t <;> rw [h] <;> rfl

/-- A tick matters to the sequencing in ENABLE only (R176). -/
theorem driverArm_tick_irrelevant (o : ShiftOrder) {d : Driver} (h : d.st ≠ .enable) (t u : Bool) :
    driverArm o d t = driverArm o d u := by
  cases hs : d.st <;> simp_all [driverArm]

@[simp] theorem driverRun_nil (o : ShiftOrder) (d : Driver) : driverRun o d [] = d := rfl
@[simp] theorem driverRun_cons (o : ShiftOrder) (d : Driver) (i : PortInputs) (is : List PortInputs) :
    driverRun o d (i :: is) = driverRun o (driverNext o d i) is := rfl
theorem driverRun_append (o : ShiftOrder) (d : Driver) (is js : List PortInputs) :
    driverRun o d (is ++ js) = driverRun o (driverRun o d is) js := by simp [driverRun]

@[simp] theorem tickAt_zero (i : PortInputs) (is : List PortInputs) : Safety.tickAt (i :: is) 0 = i.tick := rfl
@[simp] theorem tickAt_succ (i : PortInputs) (is : List PortInputs) (j : Nat) :
    Safety.tickAt (i :: is) (j + 1) = Safety.tickAt is j := rfl

/-- Ticks that are apart in a list are apart in its tail. -/
theorem ticksApart_tail {n : Nat} {i : PortInputs} {is : List PortInputs} (h : Safety.TicksApart n (i :: is)) :
    Safety.TicksApart n is := fun k hk j hj tj tk => by
  have := h (k + 1) (Nat.succ_lt_succ hk) (j + 1) (Nat.succ_lt_succ hj) tj tk
  omega

/-- At an edge at which SRCLK rises, SER is the same before and after: either may be taken as the bit shifted in
(Log 11). -/
theorem ser_held_at_srclk_rise (o : ShiftOrder) (d : Driver) (i : PortInputs)
    (h : rises d.srclk (driverNext o d i).srclk = true) : (driverNext o d i).ser = d.ser := by
  cases hr : i.rst with
  | true => simp [driverNext_rst o d hr, rises, Driver.reset] at h
  | false =>
    rw [driverNext_run o d hr] at h ⊢
    obtain ⟨_, e⟩ | ⟨_, _, e⟩ | ⟨_, _, _, e⟩ | ⟨_, _, _, e⟩ | ⟨_, e⟩ | ⟨_, _, e⟩ | ⟨_, _, e⟩ :=
      driverArm_cases o d i.tick <;>
      simp_all [rises, blankArm, shiftRise, shiftNextBit, shiftToLatch, latchArm, enableTick]

end Sys2Proof.Laws
end

