-- ==== Sys2Proof/Laws/PerInstr.lean ====
section
/-! SUPPORT. What holds of every instruction as syntax, one lemma per constructor. Family EncodeFields: the OP and AX fields
of an instruction's word are those of 30_encoding.md R71 and R74. -/

namespace Sys2Proof.Laws.EncodeFields

/-- The OP code (R71). -/
def opCode : Instr → BitVec 4
  | .bitindex _ _ _ => 0x0
  | .pixmask _ _ _ => 0x1
  | .levelmask _ => 0x2
  | .columnmask _ => 0x3
  | .slicemaskX _ => 0x4
  | .slicemaskY _ => 0x4
  | .slicemaskZ _ => 0x4
  | .shiftX => 0x5
  | .shiftY => 0x5
  | .shiftZ => 0x5
  | .unshiftX => 0x6
  | .unshiftY => 0x6
  | .unshiftZ => 0x6
  | .lvlslice _ => 0x7
  | .statemask => 0x8

/-- The AX code (R74), 0b00 for an operation without an axis. -/
def axCode : Instr → BitVec 2
  | .bitindex _ _ _ => 0
  | .pixmask _ _ _ => 0
  | .levelmask _ => 0
  | .columnmask _ => 0
  | .slicemaskX _ => 0b00
  | .slicemaskY _ => 0b01
  | .slicemaskZ _ => 0b10
  | .shiftX => 0b00
  | .shiftY => 0b01
  | .shiftZ => 0b10
  | .unshiftX => 0b00
  | .unshiftY => 0b01
  | .unshiftZ => 0b10
  | .lvlslice _ => 0
  | .statemask => 0

/-- The word's OP and AX fields are the instruction's. -/
def Statement (i : Instr) : Prop := opField (encode i) = opCode i ∧ axField (encode i) = axCode i

/-- A word built from its fields, bit by bit. -/
theorem getLsbD_opWord (op : BitVec 4) (ax : BitVec 2) (arg : BitVec 6) (n : Nat) :
    (opWord op ax arg).getLsbD n =
      if n < 6 then arg.getLsbD n else if n - 6 < 2 then ax.getLsbD (n - 6) else op.getLsbD (n - 6 - 2) := by
  show BitVec.getLsbD (w := 4 + 2 + 6) (op ++ ax ++ arg) n = _
  rw [BitVec.getLsbD_append, BitVec.getLsbD_append]

/-- A word built from its fields has the OP and AX fields it was built from. -/
theorem fields_of_opWord (op : BitVec 4) (ax : BitVec 2) (arg : BitVec 6) :
    opField (opWord op ax arg) = op ∧ axField (opWord op ax arg) = ax := by
  constructor <;> ext k hk
  · have high : ¬ 8 + k < 6 ∧ ¬ 8 + k - 6 < 2 ∧ 8 + k - 6 - 2 = k := by omega
    simp [opField, getLsbD_opWord, high, BitVec.getLsbD_eq_getElem hk]
  · have middle : ¬ 6 + k < 6 ∧ 6 + k - 6 = k := by omega
    simp [axField, getLsbD_opWord, middle, hk]

theorem bitindex (x y z : Nat) : Statement (.bitindex x y z) := fields_of_opWord ..
theorem pixmask (x y z : Nat) : Statement (.pixmask x y z) := fields_of_opWord ..
theorem levelmask (l : Nat) : Statement (.levelmask l) := fields_of_opWord ..
theorem columnmask (c : Nat) : Statement (.columnmask c) := fields_of_opWord ..
theorem slicemaskX (k : Nat) : Statement (.slicemaskX k) := fields_of_opWord ..
theorem slicemaskY (k : Nat) : Statement (.slicemaskY k) := fields_of_opWord ..
theorem slicemaskZ (k : Nat) : Statement (.slicemaskZ k) := fields_of_opWord ..
theorem shiftX : Statement .shiftX := fields_of_opWord ..
theorem shiftY : Statement .shiftY := fields_of_opWord ..
theorem shiftZ : Statement .shiftZ := fields_of_opWord ..
theorem unshiftX : Statement .unshiftX := fields_of_opWord ..
theorem unshiftY : Statement .unshiftY := fields_of_opWord ..
theorem unshiftZ : Statement .unshiftZ := fields_of_opWord ..
theorem lvlslice (l : Nat) : Statement (.lvlslice l) := fields_of_opWord ..
theorem statemask : Statement .statemask := fields_of_opWord ..

end Sys2Proof.Laws.EncodeFields
end

