-- ==== Sys2Proof/Laws/State.lean ====
section
/-! SUPPORT. One lemma per field per update, so that no later proof unfolds a record update. -/

namespace Sys2Proof.Laws

open Sys2Proof.Machine

section driveResult
variable (v : LedState) (s : State)
@[simp] theorem driveResult_build : (driveResult v s).build = s.build := rfl
@[simp] theorem driveResult_ports : (driveResult v s).ports = s.ports := rfl
@[simp] theorem driveResult_rOut : (driveResult v s).rOut = v := rfl
@[simp] theorem driveResult_illegal : (driveResult v s).illegal = false := rfl
@[simp] theorem driveResult_driver : (driveResult v s).driver = s.driver := rfl
@[simp] theorem driveResult_chain : (driveResult v s).chain = s.chain := rfl
@[simp] theorem driveResult_schedule : (driveResult v s).schedule = s.schedule := rfl
@[simp] theorem driveResult_drawn : (driveResult v s).drawn = s.drawn := rfl
end driveResult

section signalIllegal
variable (s : State)
@[simp] theorem signalIllegal_build : (signalIllegal s).build = s.build := rfl
@[simp] theorem signalIllegal_ports : (signalIllegal s).ports = s.ports := rfl
@[simp] theorem signalIllegal_rOut : (signalIllegal s).rOut = 0 := rfl
@[simp] theorem signalIllegal_illegal : (signalIllegal s).illegal = true := rfl
@[simp] theorem signalIllegal_driver : (signalIllegal s).driver = s.driver := rfl
@[simp] theorem signalIllegal_chain : (signalIllegal s).chain = s.chain := rfl
@[simp] theorem signalIllegal_schedule : (signalIllegal s).schedule = s.schedule := rfl
@[simp] theorem signalIllegal_drawn : (signalIllegal s).drawn = s.drawn := rfl
end signalIllegal

section present
variable (s : State)
@[simp] theorem present_build : (present s).build = s.build := by unfold present; split <;> rfl
@[simp] theorem present_ports : (present s).ports = nextInputs s := by unfold present; split <;> rfl
@[simp] theorem present_rOut : (present s).rOut = s.rOut := by unfold present; split <;> rfl
@[simp] theorem present_illegal : (present s).illegal = s.illegal := by unfold present; split <;> rfl
@[simp] theorem present_driver : (present s).driver = s.driver := by unfold present; split <;> rfl
@[simp] theorem present_chain : (present s).chain = s.chain := by unfold present; split <;> rfl
@[simp] theorem present_schedule : (present s).schedule = s.schedule.tail := by
  unfold present; split <;> simp_all
end present

section nextInputs
variable (s : State)
@[simp] theorem nextInputs_cons (i : PortInputs) (rest : List PortInputs) (h : s.schedule = i :: rest) :
    nextInputs s = i := by simp [nextInputs, h]
/-- A free input keeps R267 (Log 2). -/
theorem nextInputs_nil_stable (h : s.schedule = []) : (nextInputs s).stable = true := by simp [nextInputs, h]
end nextInputs

section clockEdge
variable (s : State)
@[simp] theorem clockEdge_build : (clockEdge s).build = s.build := by unfold clockEdge; split <;> rfl
@[simp] theorem clockEdge_ports : (clockEdge s).ports = s.ports := by unfold clockEdge; split <;> rfl
@[simp] theorem clockEdge_rOut : (clockEdge s).rOut = s.rOut := by unfold clockEdge; split <;> rfl
@[simp] theorem clockEdge_illegal : (clockEdge s).illegal = s.illegal := by unfold clockEdge; split <;> rfl
@[simp] theorem clockEdge_schedule : (clockEdge s).schedule = s.schedule := by unfold clockEdge; split <;> rfl
@[simp] theorem clockEdge_drawn : (clockEdge s).drawn = s.drawn := by unfold clockEdge; split <;> rfl
theorem clockEdge_driver :
    (clockEdge s).driver = if s.ports.clk then driverNext s.build.shiftOrder s.driver s.ports else s.driver := by
  unfold clockEdge; split <;> rfl
theorem clockEdge_chain :
    (clockEdge s).chain =
      if s.ports.clk then chainNext s.driver (driverNext s.build.shiftOrder s.driver s.ports) s.chain
      else s.chain := by
  unfold clockEdge; split <;> rfl
end clockEdge

end Sys2Proof.Laws
end

