-- ==== Sys2Proof/Laws/Step.lean ====
section
/-! SUPPORT. What one step can do, said once. -/

namespace Sys2Proof.Laws

open Sys2Proof.Machine

/-- An operation drives the unit's outputs and does nothing else (10_state.md R27). -/
theorem exec_drives (i : Instr) (s : State) : ∃ v, exec i s = .next (driveResult v s) := by
  cases i <;> exact ⟨_, rfl⟩

theorem exec_next {i : Instr} {s t : State} (h : exec i s = .next t) : ∃ v, t = driveResult v s := by
  obtain ⟨v, e⟩ := exec_drives i s
  exact ⟨v, by simpa using (h.symm.trans e)⟩

/-- The refusing case. -/
theorem step_unsynchronised {s : State} (h : unsynchronised (nextInputs s) = true) :
    step s = .refused .unsynchronisedInputs := by simp [step, h]

theorem step_legal {s t : State} {i : Instr} (h : unsynchronised (nextInputs s) = false)
    (hd : decode (nextInputs s).opw = .legal i) (he : exec i (present s) = .next t) :
    step s = .next (clockEdge t) := by
  simp [step, h, hd, he]

theorem step_illegal {s : State} {w : Illegal} (h : unsynchronised (nextInputs s) = false)
    (hd : decode (nextInputs s).opw = .illegal w) : step s = .next (clockEdge (signalIllegal (present s))) := by
  simp [step, h, hd]

/-- Everything a step that goes on can be: the inputs were stable, and the word was an operation or illegal. -/
theorem step_cases {s t : State} (hs : step s = .next t) :
    unsynchronised (nextInputs s) = false ∧
      ((∃ i v, decode (nextInputs s).opw = .legal i ∧ exec i (present s) = .next (driveResult v (present s)) ∧
          t = clockEdge (driveResult v (present s))) ∨
        (∃ w, decode (nextInputs s).opw = .illegal w ∧ t = clockEdge (signalIllegal (present s)))) := by
  cases hu : unsynchronised (nextInputs s) with
  | true => rw [step_unsynchronised hu] at hs; cases hs
  | false =>
    refine ⟨rfl, ?_⟩
    cases hd : decode (nextInputs s).opw with
    | legal i =>
      obtain ⟨v, he⟩ := exec_drives i (present s)
      rw [step_legal hu hd he] at hs
      exact .inl ⟨i, v, rfl, he, by simpa using hs.symm⟩
    | illegal w =>
      rw [step_illegal hu hd] at hs
      exact .inr ⟨w, rfl, by simpa using hs.symm⟩

/-- A step that goes on makes the build, the driver, the chain and the ports what the clock edge makes them, whatever the
word on `opw` was. -/
theorem step_frame {s t : State} (hs : step s = .next t) :
    t.build = s.build ∧ t.ports = nextInputs s ∧ t.schedule = s.schedule.tail ∧
      t.driver = (clockEdge (present s)).driver ∧ t.chain = (clockEdge (present s)).chain := by
  obtain ⟨_, ⟨i, v, _, _, rfl⟩ | ⟨w, _, rfl⟩⟩ := step_cases hs <;> simp [clockEdge_driver, clockEdge_chain]

/-- Either no edge of clk, and the driver and the chain stay, or one edge, and they take one step of R180 and R200. -/
theorem step_driver_cases {s t : State} (hs : step s = .next t) :
    ((nextInputs s).clk = false ∧ t.driver = s.driver ∧ t.chain = s.chain) ∨
      ((nextInputs s).clk = true ∧ t.driver = driverNext s.build.shiftOrder s.driver (nextInputs s) ∧
        t.chain = chainNext s.driver (driverNext s.build.shiftOrder s.driver (nextInputs s)) s.chain) := by
  obtain ⟨_, _, _, hd, hc⟩ := step_frame hs
  cases hk : (nextInputs s).clk with
  | false => exact .inl ⟨rfl, by simp [hd, clockEdge_driver, hk], by simp [hc, clockEdge_chain, hk]⟩
  | true => exact .inr ⟨rfl, by simp [hd, clockEdge_driver, hk], by simp [hc, clockEdge_chain, hk]⟩

/-- A property that every freshly reset state has and every step keeps holds of every reachable state. -/
theorem reachable_of_step {P : State → Prop} (h0 : ∀ s, s.driver = Driver.reset → P s)
    (hstep : ∀ s t, P s → step s = .next t → P t) {s : State} (h : Safety.Reachable s) : P s := by
  induction h with
  | reset s h => exact h0 s h
  | step s t _ hs ih => exact hstep s t ih hs

end Sys2Proof.Laws
end

