-- ==== Sys2Proof/Laws/Transform.lean ====
section
/-! SUPPORT. The transforms read bit by bit (41_transform.md R140, R141). -/

namespace Sys2Proof.Laws

open Sys2Proof.Machine Sys2Proof.Safety

theorem stride_pos (a : Axis) : 0 < stride a := by cases a <;> decide

/-- Bit n of a shift comes from one stride below, unless n is in the entry plane. -/
theorem getLsbD_shiftAxis (s : LedState) (a : Axis) {n : Nat} (h : n < 64) :
    (shiftAxis s a).getLsbD n =
      (!decide (n < stride a) && s.getLsbD (n - stride a) && !decide (axisCoord a n = 0)) := by
  simp only [shiftAxis, BitVec.getLsbD_and, BitVec.getLsbD_not, BitVec.getLsbD_shiftLeft, getLsbD_ledStateMask h,
    getLsbD_axisSliceMask a 0 h, h]
  simp

/-- Bit n of an unshift comes from one stride above, unless n is in the entry plane. -/
theorem getLsbD_unshiftAxis (s : LedState) (a : Axis) {n : Nat} (h : n < 64) :
    (unshiftAxis s a).getLsbD n = (s.getLsbD (stride a + n) && !decide (axisCoord a n = 3)) := by
  simp only [unshiftAxis, BitVec.getLsbD_and, BitVec.getLsbD_not, BitVec.getLsbD_ushiftRight,
    getLsbD_axisSliceMask a 3 h, h]
  simp

end Sys2Proof.Laws
end

