-- ==== Sys2Proof/Tests/Slice0.lean ====
section
/-! SUPPORT. The model's own tests: ill-formed terms, words written out from the spec's encodings, one-step results from the
spec's vectors (95_test_vectors.md), and, for every statement with hypotheses, inputs that meet them. -/

namespace Sys2Proof.Tests

open Sys2Proof.Machine Sys2Proof.Safety

/-! ## Helpers -/

/-- The reset state with `s_in` on the port. -/
def onPort (v : LedState) : State := { State.reset with ports := { State.reset.ports with sIn := v } }

/-- `r_out` and `illegal` after an outcome. -/
def result (r : Host.Outcome State Fault Refusal) : Option (LedState × Bool) :=
  match r with
  | .next t => some (t.rOut, t.illegal)
  | .fault _ => none
  | .refused _ => none

/-- The driver after an outcome. -/
def driverOf (r : Host.Outcome State Fault Refusal) : Option Driver :=
  match r with
  | .next t => some t.driver
  | .fault _ => none
  | .refused _ => none

/-- The instruction on the reset state with `s_in`. -/
def runOp (i : Instr) (sIn : LedState) : Option (LedState × Bool) := result (exec i (onPort sIn))

/-- One clock edge with nothing else. -/
def tickless : PortInputs := { PortInputs.idle with clk := true }

/-- The reset state with another driver, and one input to come. -/
def withInput (d : Driver) (i : PortInputs) : State := { State.reset with driver := d, schedule := [i] }

/-- One step of the driver, from its registers and its inputs. -/
def edgeOf (d : Driver) (i : PortInputs) : Option Driver := driverOf (step (withInput d i))

/-- A driver in the middle of a level: level 1 of the diagonal frame of DV3. -/
def dv3 : Driver :=
  { Driver.reset with
    cur := 0x8000_0400_0020_0001, frm := 0x8000_0400_0020_0001, lvl := 1, sl := 0x0020, bc := 15 }

/-- As many steps as go on. -/
def after : Nat → State → State
  | 0, s => s
  | n + 1, s =>
    match step s with
    | .next t => after n t
    | .fault _ => s
    | .refused _ => s

theorem reachable_after (n : Nat) (s : State) (h : Reachable s) : Reachable (after n s) := by
  induction n generalizing s with
  | zero => exact h
  | succ n ih =>
    unfold after
    split
    · exact ih _ (.step s _ h ‹_›)
    · exact h
    · exact h

/-! ## Ill-formed instructions are refused -/

theorem test_wf_bitindex_x : (Instr.bitindex 4 0 0).wf = false := by decide
theorem test_wf_bitindex_y : (Instr.bitindex 0 4 0).wf = false := by decide
theorem test_wf_bitindex_z : (Instr.bitindex 0 0 4).wf = false := by decide
theorem test_wf_pixmask_x : (Instr.pixmask 4 3 3).wf = false := by decide
theorem test_wf_pixmask_y : (Instr.pixmask 3 4 3).wf = false := by decide
theorem test_wf_pixmask_z : (Instr.pixmask 3 3 4).wf = false := by decide
theorem test_wf_levelmask : (Instr.levelmask 4).wf = false := by decide
theorem test_wf_columnmask : (Instr.columnmask 16).wf = false ∧ (Instr.columnmask 15).wf = true := by decide
theorem test_wf_slicemaskX : (Instr.slicemaskX 4).wf = false := by decide
theorem test_wf_slicemaskY : (Instr.slicemaskY 4).wf = false := by decide
theorem test_wf_slicemaskZ : (Instr.slicemaskZ 4).wf = false := by decide
theorem test_wf_lvlslice : (Instr.lvlslice 4).wf = false ∧ (Instr.lvlslice 3).wf = true := by decide

/-! ## Decoding: each constructor's word from R71, R102 to R147, and the illegal words of 95_test_vectors.md section 2 -/

theorem test_decode_bitindex : decode 0b0000_00_01_10_11#12 = .legal (.bitindex 1 2 3) := by decide
theorem test_decode_pixmask : decode 0b0001_00_11_10_01#12 = .legal (.pixmask 3 2 1) := by decide
theorem test_decode_levelmask : decode 0b0010_00_0000_11#12 = .legal (.levelmask 3) := by decide
theorem test_decode_columnmask : decode 0b0011_00_00_1101#12 = .legal (.columnmask 13) := by decide
theorem test_decode_slicemaskX : decode 0b0100_00_0000_01#12 = .legal (.slicemaskX 1) := by decide
theorem test_decode_slicemaskY : decode 0b0100_01_0000_11#12 = .legal (.slicemaskY 3) := by decide
theorem test_decode_slicemaskZ : decode 0b0100_10_0000_10#12 = .legal (.slicemaskZ 2) := by decide
theorem test_decode_shiftX : decode 0b0101_00_000000#12 = .legal .shiftX := by decide
theorem test_decode_shiftY : decode 0b0101_01_000000#12 = .legal .shiftY := by decide
theorem test_decode_shiftZ : decode 0b0101_10_000000#12 = .legal .shiftZ := by decide
theorem test_decode_unshiftX : decode 0b0110_00_000000#12 = .legal .unshiftX := by decide
theorem test_decode_unshiftY : decode 0b0110_01_000000#12 = .legal .unshiftY := by decide
theorem test_decode_unshiftZ : decode 0b0110_10_000000#12 = .legal .unshiftZ := by decide
theorem test_decode_lvlslice : decode 0b0111_00_0000_10#12 = .legal (.lvlslice 2) := by decide
theorem test_decode_statemask : decode 0b1000_00_000000#12 = .legal .statemask := by decide
theorem test_decode_axis_not_zero :
    [0x040#12, 0x0C0, 0x2C0, 0x840].map decode = List.replicate 4 (.illegal .axisNotZero) := by decide
theorem test_decode_arg_not_zero :
    [0x204#12, 0x310, 0x404, 0x501, 0x704, 0x801].map decode = List.replicate 6 (.illegal .argNotZero) := by decide
theorem test_decode_reserved_axis :
    [0x4C0#12, 0x5C0, 0x6C0].map decode = List.replicate 3 (.illegal .reservedAxis) := by decide
theorem test_decode_reserved_op :
    [0x900#12, 0xA00, 0xFFF].map decode = List.replicate 3 (.illegal .reservedOp) := by decide
theorem test_decodeTableWord : decodeTableWord 16 0x443 = some (.slicemaskY 3) ∧ decodeTableWord 16 0x1443 = none := by
  decide
theorem test_encode_is_the_spec_word :
    encode (.bitindex 1 2 3) = 0x01B#12 ∧ encode (.columnmask 5) = 0x305#12 ∧ encode (.unshiftY) = 0x640#12 := by
  decide
theorem test_asm : (Instr.pixmask 3 3 3).asm = "PIXMASK 3, 3, 3" ∧ (Instr.slicemaskX 0).asm = "SLICEMASK.X 0" ∧
    Instr.shiftZ.asm = "SHIFT.Z" := by decide

/-! ## Results (95_test_vectors.md sections 2 to 4) -/

theorem test_bitindex : runOp (.bitindex 1 2 3) 0 = some (27, false) := by decide
theorem test_bitindex_ends : runOp (.bitindex 3 0 0) 0 = some (48, false) := by decide
theorem test_pixmask : runOp (.pixmask 1 0 0) 0 = some (0x0000_0000_0001_0000, false) := by decide
theorem test_pixmask_top : runOp (.pixmask 3 3 3) 0 = some (0x8000_0000_0000_0000, false) := by decide
theorem test_levelmask : runOp (.levelmask 3) 0 = some (0x8888_8888_8888_8888, false) := by decide
theorem test_columnmask : runOp (.columnmask 5) 0 = some (0x0000_0000_00F0_0000, false) := by decide
theorem test_columnmask_top : runOp (.columnmask 15) 0 = some (0xF000_0000_0000_0000, false) := by decide
theorem test_slicemaskX : runOp (.slicemaskX 1) 0 = some (0x0000_0000_FFFF_0000, false) := by decide
theorem test_slicemaskY : runOp (.slicemaskY 3) 0 = some (0xF000_F000_F000_F000, false) := by decide
theorem test_slicemaskZ : runOp (.slicemaskZ 2) 0 = some (0x4444_4444_4444_4444, false) := by decide
theorem test_shiftX : runOp .shiftX 0x0123_4567_89AB_CDEF = some (0x4567_89AB_CDEF_0000, false) := by decide
theorem test_shiftY : runOp .shiftY 0x0123_4567_89AB_CDEF = some (0x1230_5670_9AB0_DEF0, false) := by decide
theorem test_shiftZ : runOp .shiftZ 0x0123_4567_89AB_CDEF = some (0x0246_8ACE_0246_8ACE, false) := by decide
theorem test_unshiftX : runOp .unshiftX 0x0123_4567_89AB_CDEF = some (0x0000_0123_4567_89AB, false) := by decide
theorem test_unshiftY : runOp .unshiftY 0x0123_4567_89AB_CDEF = some (0x0012_0456_089A_0CDE, false) := by decide
theorem test_unshiftZ : runOp .unshiftZ 0x0123_4567_89AB_CDEF = some (0x0011_2233_4455_6677, false) := by decide
theorem test_lvlslice : runOp (.lvlslice 2) 0x0123_4567_89AB_CDEF = some (0x0F0F, false) := by decide
theorem test_lvlslice_diagonal : runOp (.lvlslice 3) 0x8000_0400_0020_0001 = some (0x8000, false) := by decide
theorem test_statemask : runOp .statemask 0 = some (0xFFFF_FFFF_FFFF_FFFF, false) := by decide
theorem test_operands_masked : runOp (.levelmask 7) 0 = some (0x8888_8888_8888_8888, false) := by decide

/-- An illegal word gives 0 and the flag, and the machine goes on (R85, section 2). -/
theorem test_illegal_word : result (step ((onPort 0xFFFF).withFetchWord 16 0x5C0)) = some (0, true) := by decide

/-- The first operation after reset. -/
theorem test_first_operation : result (step (State.reset.withFetchWord 16 0x13F)) = some (0x8000_0000_0000_0000, false) := by
  decide

/-- A word presented with `s_in` as it is. -/
theorem test_fetched_operand : result (step ((onPort 0x1).withFetchWord 16 0x540)) = some (0x10, false) := by decide

/-! ## The driver, one edge (95_test_vectors.md DV3 to DV8) -/

theorem test_blank :
    edgeOf dv3 tickless = some { dv3 with sl := 0x0020, st := .shift, bc := 0, ph := false, ser := false } := by decide
theorem test_shift_rise :
    edgeOf { dv3 with st := .shift, bc := 10, ser := true } tickless =
      some { dv3 with st := .shift, bc := 10, ph := true, ser := true, srclk := true } := by decide
theorem test_shift_next_bit :
    edgeOf { dv3 with st := .shift, bc := 9, ph := true, srclk := true } tickless =
      some { dv3 with st := .shift, bc := 10, ser := true } := by decide
theorem test_shift_to_latch :
    edgeOf { dv3 with st := .shift, ph := true, srclk := true } tickless =
      some { dv3 with st := .latch, rclk := true } := by decide
theorem test_latch :
    edgeOf { dv3 with st := .latch, rclk := true } tickless =
      some { dv3 with st := .enable, oeN := false, cath := 0b0010 } := by decide
theorem test_enable_tick :
    edgeOf { dv3 with lvl := 3, st := .enable, oeN := false, cath := 0b1000 } { tickless with tick := true } =
      some { dv3 with lvl := 0 } := by decide
theorem test_tick_dropped :
    (edgeOf { dv3 with st := .shift, bc := 4 } { tickless with tick := true }).map (fun d => (d.ovr, d.st, d.lvl)) =
      some (true, .shift, 1) := by decide
theorem test_write_at_sample :
    (edgeOf { Driver.reset with cur := 0x1 } { tickless with curWe := true, curD := 0x10 }).map
      (fun d => (d.cur, d.frm, d.sl)) = some (0x10, 0x1, 0x0001) := by decide
theorem test_tick_during_reset :
    edgeOf { dv3 with st := .shift } { tickless with rst := true, tick := true, curWe := true } = some Driver.reset := by
  decide
theorem test_no_edge : edgeOf dv3 { tickless with clk := false, tick := true, rst := true } = some dv3 := by decide
theorem test_lsb_first :
    (driverNext .lsbFirst { Driver.reset with cur := 0x1 } tickless).ser = true ∧
      (driverNext .msbFirst { Driver.reset with cur := 0x1 } tickless).ser = false := by decide
theorem test_st_codes :
    [DriverSt.blank, .shift, .latch, .enable].map DriverSt.code = [0b00#2, 0b01, 0b10, 0b11] := by decide
theorem test_unstable_refused :
    step (withInput dv3 { tickless with stable := false }) = .refused .unsynchronisedInputs := by rfl
theorem test_chain_shifts : chainNext { dv3 with ser := true } { dv3 with ser := true, srclk := true }
    { sr := 0x8001, q := 0x1234 } = { sr := 0x0003, q := 0x1234 } := by decide
theorem test_chain_latches : chainNext dv3 { dv3 with rclk := true } { sr := 0x0020, q := 0x1234 } =
    { sr := 0x0020, q := 0x0020 } := by decide
theorem test_conditions : conditions { State.reset with illegal := true, driver := { dv3 with ovr := true } } =
    [.illegalOp, .tickOverrun] := by decide

/-! ## Witnesses: inputs that meet the hypotheses of the statements, clause by clause -/

theorem witness_DecodeOfEncodeIsTheInstruction :
    (Instr.bitindex 3 3 3).wf = true ∧ (Instr.columnmask 15).wf = true ∧ (Instr.slicemaskZ 0).wf = true ∧
      Instr.unshiftZ.wf = true := by decide
theorem witness_EncodeOfDecodeIsTheWord : decode 0x30F#12 = .legal (.columnmask 15) := by decide
theorem witness_IllegalWordOutputsZeroAndFlag :
    let s := withInput dv3 { tickless with opw := 0x900 }
    let t := withInput dv3 { tickless with opw := 0x800 }
    Stable s ∧ legal (nextInputs s).opw = false ∧ Stable t ∧ legal (nextInputs t).opw = true := by decide
theorem witness_StepRunsThePresentedOperation :
    let s := withInput dv3 { tickless with opw := 0x800 }
    Stable s ∧ decode (nextInputs s).opw = .legal .statemask ∧
      exec .statemask (present s) = .next (driveResult ledStateMask (present s)) := ⟨by decide, by decide, rfl⟩
theorem witness_StepStopsOnlyOnUnstableInputs :
    Stable (withInput dv3 tickless) ∧ Stable (withInput dv3 { tickless with clk := false, stable := false }) ∧
      (nextInputs (withInput dv3 { tickless with stable := false })).clk = true ∧
      (nextInputs (withInput dv3 { tickless with stable := false })).stable = false := by decide
/-- Operands at both ends of their ranges, for the statements about one operation with ranges. -/
theorem witness_operation_ranges :
    (result (exec (.bitindex 3 3 3) State.reset)).isSome ∧ (result (exec (.pixmask 0 3 3) State.reset)).isSome ∧
      (result (exec (.levelmask 3) State.reset)).isSome ∧ (result (exec (.columnmask 15) State.reset)).isSome ∧
      (result (exec (.slicemaskX 3) State.reset)).isSome ∧ (3 < 4 ∧ 15 < 16) := by decide
theorem witness_LvlsliceExtractsTheLevel :
    (onPort 0).ports.sIn = 0 ∧ (onPort 0xFFFF_FFFF_FFFF_FFFF).ports.sIn = 0xFFFF_FFFF_FFFF_FFFF ∧
      (onPort 0x8000_0000_0000_0001).ports.sIn = 0x8000_0000_0000_0001 := by decide
theorem witness_ShiftMovesTowardIncreasing :
    (onPort 0xFFFF_0000_0000_0000).ports.sIn = 0xFFFF_0000_0000_0000 ∧
      (onPort 0xF000_F000_F000_F000).ports.sIn = 0xF000_F000_F000_F000 ∧
      (onPort 0x8888_8888_8888_8888).ports.sIn = 0x8888_8888_8888_8888 ∧ (onPort 0x1).ports.sIn = 0x1 := by decide
theorem witness_UnshiftMovesTowardDecreasing :
    (onPort 0x0000_0000_0000_FFFF).ports.sIn = 0x0000_0000_0000_FFFF ∧
      (onPort 0x000F_000F_000F_000F).ports.sIn = 0x000F_000F_000F_000F ∧
      (onPort 0x1111_1111_1111_1111).ports.sIn = 0x1111_1111_1111_1111 ∧
      (onPort 0x8000_0000_0000_0000).ports.sIn = 0x8000_0000_0000_0000 := by decide
theorem witness_StepOutputsAreThePureFunction :
    (result (step (withInput dv3 { tickless with opw := 0x5C0 }))).isSome ∧
      (result (step (withInput dv3 { tickless with opw := 0x540 }))).isSome := by decide
theorem witness_OperandsOutOfRangeAreMasked : decode 0x203#12 = .legal (.levelmask 3) ∧ (Instr.levelmask 3).wf = true := by
  decide
theorem witness_OperationsDependOnSInOnly :
    (readsSIn .statemask = true → (onPort 1).ports.sIn = (onPort 2).ports.sIn) ∧
      (result (exec .statemask (onPort 1))).isSome ∧ (result (exec .statemask (onPort 2))).isSome ∧
      (readsSIn .shiftX = true → (onPort 1).ports.sIn = (onPort 1).ports.sIn) := by decide
theorem witness_EvaluationAndWritesAreIdempotent :
    (result (exec .shiftX (onPort 1))).isSome ∧ tickless.rst = false ∧
      { tickless with curWe := true, curD := 5 }.curWe = true ∧ tickless.curWe = false := by decide
theorem witness_AxisSliceMasksPartition : (0 : Nat) < 4 ∧ (3 : Nat) < 4 ∧ (0 : Nat) ≠ 3 := by decide
theorem witness_LevelAndColumnMasksPartition : (0 : Nat) < 16 ∧ (15 : Nat) < 16 ∧ (0 : Nat) ≠ 15 ∧ (3 : Nat) < 4 := by
  decide
theorem witness_coordinates : (0 : Nat) < 4 ∧ (3 : Nat) < 4 ∧ (63 : Nat) < 64 ∧ (15 : Nat) < 16 := by decide
theorem witness_TransformsOnDistinctAxesCommute : Axis.x ≠ Axis.z := by decide
theorem witness_ResetEdgeLoadsEveryRegister :
    let i := { tickless with rst := true, tick := true }
    Edge (withInput dv3 i) i ∧ i.rst = true := by decide
theorem witness_CurWritePort :
    let i := { tickless with curWe := true, curD := 7 }
    Edge (withInput dv3 i) i ∧ i.rst = false ∧ i.curWe = true ∧ Edge (withInput dv3 tickless) tickless ∧
      tickless.rst = false ∧ tickless.curWe = false := by decide
theorem witness_FrameSample :
    Edge (withInput Driver.reset tickless) tickless ∧ tickless.rst = false ∧ Driver.reset.st = .blank ∧
      Driver.reset.lvl = 0 ∧ Edge (withInput dv3 tickless) tickless ∧ ¬ (dv3.st = .blank ∧ dv3.lvl = 0) := by decide
theorem witness_BlankSelectsTheLevelSlice :
    Edge (withInput dv3 tickless) tickless ∧ tickless.rst = false ∧ dv3.st = .blank ∧ dv3.lvl ≠ 0 ∧
      Driver.reset.st = .blank ∧ Driver.reset.lvl = 0 := by decide
theorem witness_ShiftPhases :
    let a : Driver := { dv3 with st := .shift, bc := 14, ph := true }
    let b : Driver := { dv3 with st := .shift, bc := 15, ph := true }
    let c : Driver := { dv3 with st := .shift, bc := 15, ph := false }
    Edge (withInput a tickless) tickless ∧ tickless.rst = false ∧ a.st = .shift ∧ a.ph = true ∧ a.bc.toNat < 15 ∧
      Edge (withInput b tickless) tickless ∧ b.st = .shift ∧ b.ph = true ∧ b.bc = 15 ∧ b.rclk = false ∧
      Edge (withInput c tickless) tickless ∧ c.st = .shift ∧ c.ph = false ∧ c.srclk = false := by decide
theorem witness_LatchLightsTheLevel :
    let d : Driver := { dv3 with st := .latch }
    Edge (withInput d tickless) tickless ∧ tickless.rst = false ∧ d.st = .latch := by decide
theorem witness_EnableHoldsUntilTick :
    let d : Driver := { dv3 with lvl := 3, st := .enable }
    let i := { tickless with tick := true }
    Edge (withInput d tickless) tickless ∧ tickless.rst = false ∧ tickless.tick = false ∧ d.st = .enable ∧
      Edge (withInput d i) i ∧ i.rst = false ∧ i.tick = true := by decide
theorem witness_OverrunFlagIsSticky :
    let i := { tickless with tick := true }
    let d : Driver := { dv3 with ovr := true }
    Edge (withInput dv3 i) i ∧ i.rst = false ∧ i.tick = true ∧ dv3.st ≠ .enable ∧
      ¬ (tickless.tick = true ∧ dv3.st ≠ .enable) ∧ d.ovr = true ∧
      (edgeOf d { tickless with rst := true }).map Driver.ovr = some false := by decide
theorem witness_SimultaneousInputs :
    let r := { tickless with rst := true }
    let w := { tickless with curWe := true }
    Edge (withInput dv3 r) r ∧ r.rst = true ∧ Edge (withInput Driver.reset w) w ∧ w.rst = false ∧ w.curWe = true ∧
      Driver.reset.st = .blank ∧ Driver.reset.lvl = 0 := by decide
theorem witness_NoEdgeNoChange :
    (driverOf (step (withInput dv3 { tickless with clk := false }))).isSome ∧
      (nextInputs (withInput dv3 { tickless with clk := false })).clk = false ∧
      (driverOf (step (withInput dv3 tickless))).isSome ∧ (nextInputs (withInput dv3 tickless)).clk = true := by decide
theorem witness_ReferenceChainTransition :
    let a : Driver := { dv3 with st := .shift, ph := false }
    let b : Driver := { dv3 with st := .shift, bc := 15, ph := true, srclk := true }
    a.srclk = false ∧ (edgeOf a tickless).map Driver.srclk = some true ∧
      (edgeOf a tickless).map Driver.rclk = some false ∧
      b.rclk = false ∧ (edgeOf b tickless).map Driver.rclk = some true ∧
      (edgeOf b tickless).map Driver.srclk = some false := by decide
theorem witness_UnitsShareNoState :
    let a := { tickless with opw := 0x800, sIn := 1 }
    let b := { tickless with opw := 0x5C0, sIn := 2 }
    (driverOf (step (withInput dv3 a))).isSome ∧ (driverOf (step (withInput dv3 b))).isSome ∧
      { nextInputs (withInput dv3 a) with opw := 0, sIn := 0 } =
        { nextInputs (withInput dv3 b) with opw := 0, sIn := 0 } ∧
      (nextInputs (withInput dv3 a)).opw = (nextInputs (withInput Driver.reset a)).opw ∧
      (nextInputs (withInput dv3 a)).sIn = (nextInputs (withInput Driver.reset a)).sIn := by decide
theorem witness_PinsMatch :
    PinsMatch .msbFirst Driver.reset ∧ Driver.reset.st = .blank ∧ NoReset (List.replicate 34 tickless) ∧
      (List.replicate 34 tickless).length = 34 ∧ NoTick ((List.replicate 36 tickless).drop 34) ∧
      List.replicate 1 tickless ≠ [] ∧
      PinsMatch .msbFirst { dv3 with st := .enable, oeN := false, cath := 0b0010 } ∧
      { tickless with tick := true }.tick = true := by decide
theorem witness_StepKeepsTheDisplayInvariant :
    DisplayInv (withInput Driver.reset tickless) ∧ (driverOf (step (withInput Driver.reset tickless))).isSome := by
  refine ⟨⟨by decide, by decide, trivial⟩, by decide⟩
/-- Every kind of state the reachable statements speak of is reached: ENABLE after the 34 edges of R190, LATCH one before,
BLANK at reset. -/
theorem witness_Reachable :
    let s : State := { State.reset with schedule := List.replicate 34 tickless }
    Reachable s ∧ s.driver.st = .blank ∧ Reachable (after 33 s) ∧ (after 33 s).driver.st = .latch ∧
      Reachable (after 34 s) ∧ (after 34 s).driver.st = .enable ∧ (driverOf (step (after 33 s))).isSome := by
  refine ⟨.reset _ rfl, rfl, reachable_after _ _ (.reset _ rfl), by decide, reachable_after _ _ (.reset _ rfl), by decide,
    by decide⟩
theorem witness_FrameIsAWholeWrittenWord :
    tickless.rst = false ∧ ¬ ((driverRun .msbFirst Driver.reset [tickless]).st = .blank ∧
      (driverRun .msbFirst Driver.reset [tickless]).lvl = 0) := by decide
/-- SHIFT is reached, in both phases. -/
theorem witness_Reachable_shift :
    let s : State := { State.reset with schedule := List.replicate 3 tickless }
    Reachable (after 1 s) ∧ Edge (after 1 s) tickless ∧ (after 1 s).driver.st = .shift ∧ (after 1 s).driver.ph = false ∧
      Reachable (after 2 s) ∧ Edge (after 2 s) tickless ∧ (after 2 s).driver.st = .shift ∧
      (after 2 s).driver.ph = true := by
  refine ⟨reachable_after _ _ (.reset _ rfl), by decide, by decide, by decide, reachable_after _ _ (.reset _ rfl),
    by decide, by decide, by decide⟩
theorem witness_CurHoldsTheLastWrite :
    NoReset [{ tickless with curWe := true, curD := 3 }, tickless] ∧ tickless.rst = false ∧
      (driverRun .msbFirst Driver.reset []).st = .blank ∧ (driverRun .msbFirst Driver.reset []).lvl = 0 := by decide
theorem witness_StartAfterReset :
    NoReset (List.replicate 34 tickless) ∧ (List.replicate 34 tickless).length = 34 ∧
      { tickless with tick := true }.rst = false ∧ { tickless with tick := true }.tick = true ∧
      ([] : List PortInputs) <+: List.replicate 34 tickless := by decide
/-- Two ticks, at the least spacing. -/
theorem witness_SpacedTicksAreAllAccepted :
    let t := { tickless with tick := true }
    let quiet := List.replicate 34 tickless
    { dv3 with st := .enable }.st = DriverSt.enable ∧ NoReset (t :: quiet ++ [t]) ∧ TicksApart 35 (t :: quiet ++ [t]) ∧
      (t :: quiet) ++ [t] <+: t :: quiet ++ [t] ∧ t.tick = true := by decide
theorem witness_EarlyTickIsDropped :
    let t := { tickless with tick := true }
    { dv3 with st := .enable }.st = DriverSt.enable ∧ t.rst = false ∧ t.tick = true ∧
      NoReset (List.replicate 33 tickless) ∧ (List.replicate 33 tickless).length < 34 ∧
      NoReset (List.replicate 34 tickless) ∧ (List.replicate 34 tickless).length = 34 := by decide
theorem witness_WithoutTicksEnableHolds :
    { dv3 with st := .enable }.st = DriverSt.enable ∧ NoReset [tickless, tickless] ∧ NoTick [tickless, tickless] := by
  decide
theorem witness_RateBound : minTickSpacing ≤ 35 ∧ 0 < 35 ∧ targetSwitchRate * 35 ≤ 14000 := by decide

end Sys2Proof.Tests
end

/-! # Proofs: the operation unit as a function of its operand, and what reset leaves (10_state.md)

The operation unit's result depends on the instruction and on `s_in` alone (`opValue`), and bit by bit it is the rules'
per-LED form (`getLsbD_opValue`). What a step makes of the outputs, and what it makes of driver and chain, follow as
equations (`step_outputs`, `step_driver`, `step_chain`). -/

namespace Sys2Proof.Proofs

open Sys2Proof.Machine Sys2Proof.Safety Sys2Proof.Laws

/-! ## The bit index and its reverse map (R20, R21) -/

@[simp] theorem indexX_bitIndex (x y z : Nat) : indexX (bitIndex x y z) = coord x := by
  have hx := coord_lt x
  have hy := coord_lt y
  have hz := coord_lt z
  unfold indexX bitIndex
  omega

@[simp] theorem indexY_bitIndex (x y z : Nat) : indexY (bitIndex x y z) = coord y := by
  have hy := coord_lt y
  have hz := coord_lt z
  unfold indexY bitIndex
  omega

@[simp] theorem indexZ_bitIndex (x y z : Nat) : indexZ (bitIndex x y z) = coord z := by
  have hz := coord_lt z
  unfold indexZ bitIndex
  omega

@[simp] theorem indexColumn_bitIndex (x y z : Nat) : indexColumn (bitIndex x y z) = columnOf x y := by
  have hx := coord_lt x
  have hy := coord_lt y
  have hz := coord_lt z
  unfold indexColumn bitIndex columnOf
  omega

theorem bitIndex_eq_columnOf (x y z : Nat) : bitIndex x y z = 4 * columnOf x y + coord z := by
  unfold bitIndex columnOf
  omega

theorem indexX_lt (n : Nat) : indexX n < 4 := axisCoord_lt .x n
theorem indexY_lt (n : Nat) : indexY n < 4 := axisCoord_lt .y n
theorem indexZ_lt (n : Nat) : indexZ n < 4 := axisCoord_lt .z n

/-- A bit number below 64 in terms of its coordinates. -/
theorem eq_of_index {n : Nat} (h : n < 64) : n = 16 * indexX n + 4 * indexY n + indexZ n := by
  unfold indexX indexY indexZ
  omega

theorem bitIndex_index {n : Nat} (h : n < 64) : bitIndex (indexX n) (indexY n) (indexZ n) = n := by
  rw [bitIndex, coord_of_lt (indexX_lt n), coord_of_lt (indexY_lt n), coord_of_lt (indexZ_lt n), ← eq_of_index h]

/-- Masked operands select a bit exactly when they are its coordinates. -/
theorem eq_bitIndex_iff (x y z : Nat) {n : Nat} (h : n < 64) :
    n = bitIndex x y z ↔ indexX n = coord x ∧ indexY n = coord y ∧ indexZ n = coord z := by
  constructor
  · rintro rfl
    simp
  · rintro ⟨hx, hy, hz⟩
    rw [eq_of_index h, hx, hy, hz, bitIndex]

/-! ## The masks and the transforms, LED by LED (R104, R108, R124, R148) -/

theorem getLsbD_pixMask (x y z : Nat) {n : Nat} (h : n < 64) :
    (pixMask x y z).getLsbD n = decide (indexX n = coord x ∧ indexY n = coord y ∧ indexZ n = coord z) := by
  have power : pixMask x y z = BitVec.twoPow 64 (bitIndex x y z) := rfl
  rw [Bool.eq_iff_iff, decide_eq_true_iff, ← eq_bitIndex_iff x y z h]
  simp [power, BitVec.getLsbD_twoPow, bitIndex_lt, eq_comm]

theorem getLsbD_columnMask (c : Nat) {n : Nat} (h : n < 64) :
    (columnMask c).getLsbD n = decide (indexColumn n = column c) := by
  have all : ∀ (q : Fin 16) (n : Fin 64),
      (0xF#64 <<< (4 * q.val)).getLsbD n.val = decide (indexColumn n.val = q.val) := by decide
  exact all ⟨column c, column_lt c⟩ ⟨n, h⟩

theorem getLsbD_sliceOnPort_levelSlice (s : LedState) (l : Nat) {n : Nat} (h : n < 64) :
    (sliceOnPort (levelSlice s l)).getLsbD n = (decide (n < 16) && s.getLsbD (4 * n + coord l)) := by
  simp [sliceOnPort, getLsbD_levelSlice, h]

/-- Outside the entry plane the source of a shifted LED lies one stride below (R148). -/
theorem shiftedLed_inside (s : LedState) {a : Axis} {n : Nat} (h : n < 64) (inside : axisCoord a n ≠ 0) :
    stride a ≤ n ∧ shiftedLed s a (indexX n) (indexY n) (indexZ n) = s.getLsbD (n - stride a) := by
  have hn := eq_of_index h
  cases a <;> simp only [axisCoord] at inside
  case x =>
    have source : 16 * (indexX n - 1) + 4 * indexY n + indexZ n = n - 16 := by omega
    simp [shiftedLed, stride, source, show 16 ≤ n by omega, Nat.one_le_iff_ne_zero, inside]
  case y =>
    have source : 16 * indexX n + 4 * (indexY n - 1) + indexZ n = n - 4 := by omega
    simp [shiftedLed, stride, source, show 4 ≤ n by omega, Nat.one_le_iff_ne_zero, inside]
  case z =>
    have source : 16 * indexX n + 4 * indexY n + (indexZ n - 1) = n - 1 := by omega
    simp [shiftedLed, stride, source, show 1 ≤ n by omega, Nat.one_le_iff_ne_zero, inside]

/-- Outside the entry plane the source of an unshifted LED lies one stride above (R148). -/
theorem unshiftedLed_inside (s : LedState) {a : Axis} {n : Nat} (h : n < 64) (inside : axisCoord a n ≠ 3) :
    unshiftedLed s a (indexX n) (indexY n) (indexZ n) = s.getLsbD (stride a + n) := by
  have hn := eq_of_index h
  have hlt := axisCoord_lt a n
  cases a <;> simp only [axisCoord] at inside hlt
  case x =>
    have source : 16 * (indexX n + 1) + 4 * indexY n + indexZ n = 16 + n := by omega
    simp [unshiftedLed, stride, source, show indexX n ≤ 2 by omega]
  case y =>
    have source : 16 * indexX n + 4 * (indexY n + 1) + indexZ n = 4 + n := by omega
    simp [unshiftedLed, stride, source, show indexY n ≤ 2 by omega]
  case z =>
    have source : 16 * indexX n + 4 * indexY n + (indexZ n + 1) = 1 + n := by omega
    simp [unshiftedLed, stride, source, show indexZ n ≤ 2 by omega]

/-- A shift moves each LED one coordinate up, and the entry plane is dark (R148). -/
theorem getLsbD_shiftAxis_led (s : LedState) (a : Axis) {n : Nat} (h : n < 64) :
    (shiftAxis s a).getLsbD n = shiftedLed s a (indexX n) (indexY n) (indexZ n) := by
  rw [getLsbD_shiftAxis s a h]
  by_cases entry : axisCoord a n = 0
  · cases a <;> simp only [axisCoord] at entry <;> simp [shiftedLed, axisCoord, entry]
  · obtain ⟨below, source⟩ := shiftedLed_inside s h entry
    simp [source, entry, below]

/-- An unshift moves each LED one coordinate down, and the entry plane is dark (R148). -/
theorem getLsbD_unshiftAxis_led (s : LedState) (a : Axis) {n : Nat} (h : n < 64) :
    (unshiftAxis s a).getLsbD n = unshiftedLed s a (indexX n) (indexY n) (indexZ n) := by
  rw [getLsbD_unshiftAxis s a h]
  by_cases entry : axisCoord a n = 3
  · cases a <;> simp only [axisCoord] at entry <;> simp [unshiftedLed, axisCoord, entry]
  · simp [unshiftedLed_inside s h entry, entry]

/-! ## The operation unit's value (R27, R79) -/

/-- The value that an instruction drives on `r_out`, from `s_in` alone. -/
def opValue (i : Instr) (sIn : LedState) : LedState :=
  match i with
  | .bitindex x y z => BitVec.ofNat 64 (bitIndex x y z)
  | .pixmask x y z => pixMask x y z
  | .levelmask l => levelMask l
  | .columnmask c => columnMask c
  | .slicemaskX k => axisSliceMask .x k
  | .slicemaskY k => axisSliceMask .y k
  | .slicemaskZ k => axisSliceMask .z k
  | .shiftX => shiftAxis sIn .x
  | .shiftY => shiftAxis sIn .y
  | .shiftZ => shiftAxis sIn .z
  | .unshiftX => unshiftAxis sIn .x
  | .unshiftY => unshiftAxis sIn .y
  | .unshiftZ => unshiftAxis sIn .z
  | .lvlslice l => sliceOnPort (levelSlice sIn l)
  | .statemask => ledStateMask

theorem exec_eq_driveResult (i : Instr) (s : State) : exec i s = .next (driveResult (opValue i s.ports.sIn) s) := by
  cases i <;> rfl

theorem exec_next_eq {i : Instr} {s t : State} (h : exec i s = .next t) :
    t = driveResult (opValue i s.ports.sIn) s := by
  rw [exec_eq_driveResult] at h
  exact (Host.Outcome.next.inj h).symm

/-- Every instruction's word arithmetic is the rules' per-LED form, for operands in range or masked (R80; Log 9). -/
theorem getLsbD_opValue (i : Instr) (sIn : LedState) {n : Nat} (h : n < 64) :
    (opValue i sIn).getLsbD n = resultBit i sIn n := by
  cases i with
  | bitindex x y z =>
    have value : genBitIndex 4 (coord x) (coord y) (coord z) = bitIndex x y z := rfl
    rw [opValue, resultBit, value, BitVec.getLsbD_ofNat, decide_eq_true h, Bool.true_and]
  | pixmask x y z => exact getLsbD_pixMask x y z h
  | levelmask l => exact getLsbD_axisSliceMask .z l h
  | columnmask c => exact getLsbD_columnMask c h
  | slicemaskX k => exact getLsbD_axisSliceMask .x k h
  | slicemaskY k => exact getLsbD_axisSliceMask .y k h
  | slicemaskZ k => exact getLsbD_axisSliceMask .z k h
  | shiftX => exact getLsbD_shiftAxis_led sIn .x h
  | shiftY => exact getLsbD_shiftAxis_led sIn .y h
  | shiftZ => exact getLsbD_shiftAxis_led sIn .z h
  | unshiftX => exact getLsbD_unshiftAxis_led sIn .x h
  | unshiftY => exact getLsbD_unshiftAxis_led sIn .y h
  | unshiftZ => exact getLsbD_unshiftAxis_led sIn .z h
  | lvlslice l => exact getLsbD_sliceOnPort_levelSlice sIn l h
  | statemask => exact getLsbD_ledStateMask h

theorem opValue_eq_ofFnLE (i : Instr) (sIn : LedState) :
    opValue i sIn = BitVec.ofFnLE fun n : Fin 64 => resultBit i sIn n.val := by
  refine BitVec.eq_of_getLsbD_eq fun n h => ?_
  rw [getLsbD_opValue i sIn h, BitVec.getLsbD_ofFnLE, dif_pos h]

/-! ## What a step makes of the outputs, the driver and the chain -/

/-- A step's outputs are the pure function of the word and the operand presented in it (R100). -/
theorem step_outputs {s t : State} (hs : step s = .next t) :
    (t.rOut, t.illegal) = opUnit (nextInputs s).opw (nextInputs s).sIn := by
  obtain ⟨_, ⟨i, v, hd, he, rfl⟩ | ⟨w, hd, rfl⟩⟩ := step_cases hs
  · have hv : v = opValue i (nextInputs s).sIn := by simpa using congrArg State.rOut (exec_next_eq he)
    simp [opUnit, hd, hv, opValue_eq_ofFnLE]
  · simp [opUnit, hd]

theorem step_driver {s t : State} (hs : step s = .next t) :
    t.driver = if (nextInputs s).clk then driverNext s.build.shiftOrder s.driver (nextInputs s) else s.driver := by
  obtain ⟨_, _, _, hd, _⟩ := step_frame hs
  simpa [clockEdge_driver] using hd

theorem step_chain {s t : State} (hs : step s = .next t) : t.chain =
    if (nextInputs s).clk then chainNext s.driver (driverNext s.build.shiftOrder s.driver (nextInputs s)) s.chain
    else s.chain := by
  obtain ⟨_, _, _, _, hc⟩ := step_frame hs
  simpa [clockEdge_chain] using hc

/-- The driver does not read the operation unit's ports (R24). -/
theorem driverNext_opw_sIn (o : ShiftOrder) (d : Driver) (i : PortInputs) (w : OpWord) (v : LedState) :
    driverNext o d { i with opw := w, sIn := v } = driverNext o d i := rfl

/-! ## A reset edge -/

/-- Reset drives SRCLK and RCLK low, so the chain sees no rising edge. -/
@[simp] theorem chainNext_reset (d : Driver) (c : Chain) : chainNext d Driver.reset c = c := by
  simp [chainNext, rises, Driver.reset]

theorem clockEdge_rst {s : State} (hclk : s.ports.clk = true) (hrst : s.ports.rst = true) :
    clockEdge s = { s with driver := Driver.reset } := by
  simp [clockEdge, hclk, driverNext_rst _ _ hrst]

theorem displayInv_of_reset {s : State} (h : s.driver = Driver.reset) : DisplayInv s := by
  have pins : PinsMatch s.build.shiftOrder Driver.reset := ⟨rfl, by simp [Driver.reset], by simp [Driver.reset]⟩
  have held : FrameHeld Driver.reset := fun notBlank => absurd rfl notBlank
  rw [DisplayInv, h]
  exact ⟨pins, held, trivial⟩

/-! ## The obligations -/

/-- Settles O18: `opValue` is what `exec` drives, and its bits are the per-LED forms. -/
theorem operationsMeanTheirPerLedForm : Obligations.OperationsMeanTheirPerLedForm := fun i s =>
  ⟨opValue i s.ports.sIn, exec_eq_driveResult i s, fun _ h => getLsbD_opValue i s.ports.sIn h⟩

/-- Settles O44: the driver and the chain step by the inputs without `opw` and `s_in`, and the outputs are the pure
function of those two. -/
theorem unitsShareNoState : Obligations.UnitsShareNoState := by
  intro s s' t t' hs hs'
  constructor
  · intro hb hd hc hp
    have hclk : (nextInputs s).clk = (nextInputs s').clk := (congrArg PortInputs.clk hp :)
    have hnext : driverNext s.build.shiftOrder s.driver (nextInputs s) =
        driverNext s'.build.shiftOrder s'.driver (nextInputs s') := by
      rw [← driverNext_opw_sIn _ _ (nextInputs s) 0 0, ← driverNext_opw_sIn _ _ (nextInputs s') 0 0, hb, hd, hp]
    rw [step_driver hs, step_driver hs', step_chain hs, step_chain hs', hclk, hnext, hd, hc]
    exact ⟨rfl, rfl⟩
  · intro hw hv
    have same : (t.rOut, t.illegal) = (t'.rOut, t'.illegal) := by
      rw [step_outputs hs, step_outputs hs', hw, hv]
    exact Prod.mk.inj same

/-- Settles O23: the reverse map gives masked coordinates back, and a bit number is the index of its coordinates. -/
theorem bitIndexIsABijection : Obligations.BitIndexIsABijection := by
  constructor
  · intro x y z hx hy hz
    refine ⟨bitIndex_lt x y z, ?_, ?_, ?_, indexColumn_bitIndex x y z, ?_, ?_⟩
    · rw [indexX_bitIndex, coord_of_lt hx]
    · rw [indexY_bitIndex, coord_of_lt hy]
    · rw [indexZ_bitIndex, coord_of_lt hz]
    · rw [columnOf, coord_of_lt hx, coord_of_lt hy]
    · rw [bitIndex_eq_columnOf, coord_of_lt hz]
  · exact fun n h => ⟨bitIndex_index h, indexX_lt n, indexY_lt n, indexZ_lt n⟩

/-- Settles O34: the presented word 0x000 is BITINDEX 0, 0, 0, which drives 0, and the edge resets the driver. -/
theorem stateResetIsWhatAResetEdgeLeaves : Obligations.StateResetIsWhatAResetEdgeLeaves := by
  intro d r ill
  have word : decode 0x000#12 = .legal (.bitindex 0 0 0) := by decide
  refine .trans (step_legal rfl word (exec_eq_driveResult ..)) ?_
  rw [clockEdge_rst rfl rfl]
  rfl

/-- Settles O46: the reset registers meet the row of BLANK, where nothing is asked of the slice or the chain. -/
theorem resetHasTheDisplayInvariant : Obligations.ResetHasTheDisplayInvariant :=
  ⟨displayInv_of_reset rfl, fun _ => displayInv_of_reset⟩

end Sys2Proof.Proofs

/-! # Proofs: the frame registers and the display's invariant (20_memory.md)

What one edge makes of `cur` and of `frm` is said once, as an equation (`driverNext_cur`, `driverNext_frm`); the
statements about runs are inductions over the edges that cite them. The invariant of the display is kept part by part: the
pins (`pinsMatch_driverArm`), the held slice (`frameHeld_driverArm`) and the reference chain (`chainFollows_driverArm`),
each by the cases of `driverArm_cases`. -/

namespace Sys2Proof.Proofs

open Sys2Proof.Machine Sys2Proof.Safety Sys2Proof.Laws

/-! ## One edge (R52, R54, R55) -/

/-- With stable inputs the step at an edge of clk goes on, and the driver takes one step of R180. -/
theorem exists_step_of_edge {s : State} {i : PortInputs} (h : Edge s i) :
    ∃ t, step s = .next t ∧ t.driver = driverNext s.build.shiftOrder s.driver i := by
  obtain ⟨rfl, hclk, hstable⟩ := h
  have stable : unsynchronised (nextInputs s) = false := by simp [unsynchronised, hstable]
  have goesOn : ∃ t, step s = .next t := by
    cases hd : decode (nextInputs s).opw with
    | legal j => exact ⟨_, step_legal stable hd (exec_eq_driveResult ..)⟩
    | illegal w => exact ⟨_, step_illegal stable hd⟩
  obtain ⟨t, ht⟩ := goesOn
  exact ⟨t, ht, by rw [step_driver ht, if_pos hclk]⟩

/-- CurWrite (R52). -/
theorem driverNext_cur (o : ShiftOrder) (d : Driver) {i : PortInputs} (hrst : i.rst = false) :
    (driverNext o d i).cur = if i.curWe then i.curD else d.cur := by
  rw [driverNext_run o d hrst]
  rfl

/-- Only the level-0 BLANK gives `frm` another value (R54, R55). -/
theorem driverArm_frm (o : ShiftOrder) (d : Driver) (t : Bool) :
    (driverArm o d t).frm = if d.st = .blank ∧ d.lvl = 0 then d.cur else d.frm := by
  obtain ⟨hst, e⟩ | ⟨hst, _, e⟩ | ⟨hst, _, _, e⟩ | ⟨hst, _, _, e⟩ | ⟨hst, e⟩ | ⟨hst, _, e⟩ | ⟨hst, _, e⟩ :=
    driverArm_cases o d t <;> rw [e, hst]
  · simp [blankArm, blankFrame]
  all_goals rfl

theorem driverNext_frm (o : ShiftOrder) (d : Driver) {i : PortInputs} (hrst : i.rst = false) :
    (driverNext o d i).frm = if d.st = .blank ∧ d.lvl = 0 then d.cur else d.frm := by
  rw [driverNext_run o d hrst]
  exact driverArm_frm o d i.tick

/-- No arm but the level-0 BLANK reads `cur` (R55). -/
theorem driverArm_with_cur (o : ShiftOrder) {d : Driver} (v : LedState) (t : Bool)
    (notSample : ¬ (d.st = .blank ∧ d.lvl = 0)) :
    driverArm o { d with cur := v } t = { driverArm o d t with cur := v } := by
  obtain ⟨hst, e⟩ | ⟨hst, hph, e⟩ | ⟨hst, hph, hbc, e⟩ | ⟨hst, hph, hbc, e⟩ | ⟨hst, e⟩ | ⟨hst, ht, e⟩ | ⟨hst, ht, e⟩ :=
    driverArm_cases o d t <;> rw [e]
  · have hlvl : d.lvl ≠ 0 := fun hlvl => notSample ⟨hst, hlvl⟩
    have frame : blankFrame { d with cur := v } = blankFrame d := (if_neg hlvl).trans (if_neg hlvl).symm
    rw [driverArm_blank (d := { d with cur := v }) o t hst]
    simp [blankArm, blankSlice, frame]
  · exact driverArm_rise (d := { d with cur := v }) o t hst hph
  · exact driverArm_nextBit (d := { d with cur := v }) o t hst hph hbc
  · exact driverArm_toLatch (d := { d with cur := v }) o t hst hph hbc
  · exact driverArm_latch (d := { d with cur := v }) o t hst
  · rw [ht]
    exact driverArm_enable_tick (d := { d with cur := v }) o hst
  · rw [ht]
    exact driverArm_enable_hold (d := { d with cur := v }) o hst

/-! ## Runs of edges (R56, R57) -/

/-- A property that every edge keeps is one that every run keeps. -/
theorem driverRun_keeps {P : Driver → Prop} (o : ShiftOrder) (keeps : ∀ d i, P d → P (driverNext o d i)) {d : Driver}
    (h : P d) (is : List PortInputs) : P (driverRun o d is) := by
  induction is generalizing d with
  | nil => exact h
  | cons i is ih => exact ih (keeps d i h)

theorem driverRun_snoc (o : ShiftOrder) (d : Driver) (is : List PortInputs) (i : PortInputs) :
    driverRun o d (is ++ [i]) = driverNext o (driverRun o d is) i := driverRun_append o d is [i]

/-- In a run without reset `cur` is the last word written, or what it was. -/
theorem driverRun_cur (o : ShiftOrder) (d : Driver) {is : List PortInputs} (noReset : NoReset is) :
    (driverRun o d is).cur = ((is.filter fun j => j.curWe).getLast?.map PortInputs.curD).getD d.cur := by
  induction is using List.reverseRecOn with
  | nil => rfl
  | append_singleton is i ih =>
    rw [driverRun_snoc, driverNext_cur o _ (noReset i (by simp)), ih fun j hj => noReset j (by simp [hj]),
      List.filter_append]
    cases hwe : i.curWe <;> simp [hwe]

/-- In a run from reset `cur` is 0 or a word written in the run. -/
theorem driverRun_reset_cur (o : ShiftOrder) (is : List PortInputs) :
    (driverRun o Driver.reset is).cur = 0 ∨
      ∃ i ∈ is, i.curWe = true ∧ (driverRun o Driver.reset is).cur = i.curD := by
  induction is using List.reverseRecOn with
  | nil => exact .inl rfl
  | append_singleton is i ih =>
    rw [driverRun_snoc]
    cases hrst : i.rst with
    | true => exact .inl (by rw [driverNext_rst o _ hrst]; rfl)
    | false =>
      rw [driverNext_cur o _ hrst]
      cases hwe : i.curWe with
      | true => exact .inr ⟨i, by simp, hwe, rfl⟩
      | false => exact ih.imp id fun ⟨j, hj, written⟩ => ⟨j, by simp [hj], written⟩

/-- In a run from reset `frm` is what `cur` was after some of the edges. -/
theorem driverRun_reset_frm (o : ShiftOrder) (is : List PortInputs) :
    ∃ pre, pre <+: is ∧ (driverRun o Driver.reset is).frm = (driverRun o Driver.reset pre).cur := by
  induction is using List.reverseRecOn with
  | nil => exact ⟨[], List.prefix_rfl, rfl⟩
  | append_singleton is i ih =>
    cases hrst : i.rst with
    | true => exact ⟨is ++ [i], List.prefix_rfl, by rw [driverRun_snoc, driverNext_rst o _ hrst]; rfl⟩
    | false =>
      rw [driverRun_snoc, driverNext_frm o _ hrst]
      split
      · exact ⟨is, List.prefix_append is [i], rfl⟩
      · obtain ⟨pre, hpre, hfrm⟩ := ih
        exact ⟨pre, hpre.trans (List.prefix_append is [i]), hfrm⟩

/-! ## The pins keep to R190's row (R192) -/

theorem pinsMatch_driverArm {o : ShiftOrder} {d : Driver} (t : Bool) (h : PinsMatch o d) :
    PinsMatch o (driverArm o d t) := by
  obtain ⟨pins, phase, count⟩ := h
  have phaseLow (notShift : d.st ≠ .shift) : d.ph = false := by simpa using mt phase notShift
  obtain ⟨hst, e⟩ | ⟨hst, hph, e⟩ | ⟨hst, hph, hbc, e⟩ | ⟨hst, hph, hbc, e⟩ | ⟨hst, e⟩ | ⟨hst, _, e⟩ | ⟨hst, _, e⟩ :=
    driverArm_cases o d t <;> rw [e] <;>
    simp only [PinsMatch, pinsOf, expectedPins, darkPins, hst, Pins.mk.injEq] at pins ⊢
  · simp [blankArm]
  · simp [shiftRise, hst, pins]
  · simp [shiftNextBit, hst, pins]
  · simp [shiftToLatch, pins, hbc]
  · simp [latchArm, pins, phaseLow, count, hst]
  · simp [enableTick, pins, phaseLow, hst]
  · simp [pins, phaseLow, count, hst]

/-! ## The held slice is the held frame's (R56) -/

theorem frameHeld_driverArm {d : Driver} (o : ShiftOrder) (t : Bool) (held : FrameHeld d) :
    FrameHeld (driverArm o d t) := by
  obtain ⟨_, e⟩ | ⟨hst, _, e⟩ | ⟨hst, _, _, e⟩ | ⟨hst, _, _, e⟩ | ⟨hst, e⟩ | ⟨_, _, e⟩ | ⟨_, _, e⟩ :=
    driverArm_cases o d t <;> rw [e]
  · exact fun _ => rfl
  · exact fun _ => held (by simp [hst])
  · exact fun _ => held (by simp [hst])
  · exact fun _ => held (by simp [hst])
  · exact fun _ => held (by simp [hst])
  · exact fun notBlank => absurd rfl notBlank
  · exact held

theorem frameHeld_driverNext (o : ShiftOrder) (d : Driver) (i : PortInputs) (held : FrameHeld d) :
    FrameHeld (driverNext o d i) := by
  cases hrst : i.rst with
  | true =>
    rw [driverNext_rst o d hrst]
    exact fun notBlank => absurd rfl notBlank
  | false =>
    rw [driverNext_run o d hrst]
    exact frameHeld_driverArm o i.tick held

/-! ## The reference chain has the bits sent so far (R200) -/

section chainNext
variable {d d' : Driver} (c : Chain)

theorem chainNext_sr_of_rise (low : d.srclk = false) (high : d'.srclk = true) :
    (chainNext d d' c).sr = shiftIn c.sr d.ser := by simp [chainNext, rises, low, high]
theorem chainNext_sr_of_low (low : d'.srclk = false) : (chainNext d d' c).sr = c.sr := by
  simp [chainNext, rises, low]
theorem chainNext_q_of_rise (low : d.rclk = false) (high : d'.rclk = true) : (chainNext d d' c).q = c.sr := by
  simp [chainNext, rises, low, high]
theorem chainNext_q_of_low (low : d'.rclk = false) : (chainNext d d' c).q = c.q := by
  simp [chainNext, rises, low]

end chainNext

theorem getLsbD_shiftIn (sr : BitVec 16) (ser : Bool) (j : Nat) :
    (shiftIn sr ser).getLsbD j =
      if j < 1 then (BitVec.ofBool ser).getLsbD j else (sr.extractLsb' 0 15).getLsbD (j - 1) :=
  BitVec.getLsbD_append

theorem getLsbD_shiftIn_zero (sr : BitVec 16) (ser : Bool) : (shiftIn sr ser).getLsbD 0 = ser := by
  rw [getLsbD_shiftIn, if_pos Nat.one_pos]
  cases ser <;> rfl

theorem getLsbD_shiftIn_succ (sr : BitVec 16) (ser : Bool) {j : Nat} (h : j < 15) :
    (shiftIn sr ser).getLsbD (j + 1) = sr.getLsbD j := by
  rw [getLsbD_shiftIn, if_neg (by omega)]
  simp [h]

/-- `sr` holds the first `n` bits of the serial sequence of `sl`, the first sent furthest in. -/
def HoldsSent (o : ShiftOrder) (sl : Slice) (n : Nat) (sr : BitVec 16) : Prop :=
  ∀ j, j < n → sr.getLsbD j = serialBit o sl (n - 1 - j)

theorem holdsSent_shiftIn {o : ShiftOrder} {sl : Slice} {n : Nat} {sr : BitVec 16} (hn : n < 16)
    (h : HoldsSent o sl n sr) : HoldsSent o sl (n + 1) (shiftIn sr (serialBit o sl n)) := by
  intro j hj
  cases j with
  | zero => rw [getLsbD_shiftIn_zero, Nat.add_sub_cancel, Nat.sub_zero]
  | succ j =>
    have sent : n + 1 - 1 - (j + 1) = n - 1 - j := by omega
    rw [getLsbD_shiftIn_succ sr _ (by omega), h j (by omega), sent]

section ChainFollows
variable {o : ShiftOrder} {d : Driver} {c : Chain}

theorem chainFollows_of_blank (h : d.st = .blank) : ChainFollows o d c := by simp [ChainFollows, h]
theorem chainFollows_shift_iff (h : d.st = .shift) :
    ChainFollows o d c ↔ HoldsSent o d.sl (bitsShifted d) c.sr := by simp [ChainFollows, h, HoldsSent]
theorem chainFollows_latched_iff (h : d.st = .latch ∨ d.st = .enable) :
    ChainFollows o d c ↔ HoldsSent o d.sl 16 c.q := by
  rcases h with h | h <;> simp [ChainFollows, h, HoldsSent]

/-- With the pins of R190's row, an arm shifts in the bit that SER presents and latches after the sixteenth. -/
theorem chainFollows_driverArm (t : Bool) (hp : PinsMatch o d) (h : ChainFollows o d c) :
    ChainFollows o (driverArm o d t) (chainNext d (driverArm o d t) c) := by
  obtain ⟨pins, -, -⟩ := hp
  obtain ⟨hst, e⟩ | ⟨hst, hph, e⟩ | ⟨hst, hph, hbc, e⟩ | ⟨hst, hph, hbc, e⟩ | ⟨hst, e⟩ | ⟨hst, _, e⟩ | ⟨hst, _, e⟩ :=
    driverArm_cases o d t <;> rw [e] <;>
    simp only [pinsOf, expectedPins, darkPins, hst, Pins.mk.injEq] at pins
  · exact (chainFollows_shift_iff rfl).2 fun j hj => absurd hj (Nat.not_lt_zero j)
  · have sent : bitsShifted d = d.bc.toNat := by simp [bitsShifted, hph]
    have next : bitsShifted (shiftRise d) = d.bc.toNat + 1 := rfl
    rw [chainFollows_shift_iff hst, sent] at h
    obtain ⟨ser, srclk, -⟩ := pins
    rw [chainFollows_shift_iff (d := shiftRise d) hst, next, chainNext_sr_of_rise c (srclk.trans hph) rfl, ser]
    exact holdsSent_shiftIn d.bc.isLt h
  · have next : bitsShifted (shiftNextBit o d) = bitsShifted d := by
      have room : d.bc.toNat + 1 < 16 := by bv_omega
      simp [bitsShifted, shiftNextBit, hph, room]
    rw [chainFollows_shift_iff hst] at h
    rw [chainFollows_shift_iff (d := shiftNextBit o d) hst, next, chainNext_sr_of_low c rfl]
    exact h
  · have sent : bitsShifted d = 16 := by simp [bitsShifted, hph, hbc]
    rw [chainFollows_shift_iff hst, sent] at h
    rw [chainFollows_latched_iff (.inl rfl), chainNext_q_of_rise c (by simp [pins]) rfl]
    exact h
  · rw [chainFollows_latched_iff (.inl hst)] at h
    rw [chainFollows_latched_iff (.inr rfl), chainNext_q_of_low c rfl]
    exact h
  · exact chainFollows_of_blank rfl
  · rw [chainFollows_latched_iff (.inr hst)] at h ⊢
    rw [chainNext_q_of_low c (by simp [pins])]
    exact h

end ChainFollows

/-! ## The obligations -/

/-- Settles O45: a reset edge establishes the invariant, and the arm of every other edge keeps each of its parts. -/
theorem stepKeepsTheDisplayInvariant : Obligations.StepKeepsTheDisplayInvariant := by
  rintro s t ⟨pins, held, chain⟩ hs
  obtain ⟨hbuild, -⟩ := step_frame hs
  obtain ⟨_, hd, hc⟩ | ⟨_, hd, hc⟩ := step_driver_cases hs
  · rw [DisplayInv, hbuild, hd, hc]
    exact ⟨pins, held, chain⟩
  · cases hrst : (nextInputs s).rst with
    | true => exact displayInv_of_reset (hd.trans (driverNext_rst _ _ hrst))
    | false =>
      rw [DisplayInv, hbuild, hd, hc, driverNext_run _ _ hrst]
      exact ⟨pinsMatch_driverArm _ pins, frameHeld_driverArm _ _ held, chainFollows_driverArm _ pins chain⟩

/-- Settles O36: `frm` and `cur` by their equations at an edge, and no arm but the level-0 BLANK reads `cur`. -/
theorem frameSample : Obligations.FrameSample := by
  refine ⟨fun s i hi hrst hst hlvl => ?_, fun s i hi hrst notSample => ?_, fun o d v i hrst notSample => ?_⟩
  · obtain ⟨t, ht, hd⟩ := exists_step_of_edge hi
    have frm : t.driver.frm = s.driver.cur := by rw [hd, driverNext_frm _ _ hrst, if_pos ⟨hst, hlvl⟩]
    have slice : t.driver.sl = levelSlice s.driver.cur 0 := by
      rw [hd, driverNext_run _ _ hrst, driverArm_blank _ _ hst]
      simp [blankArm, blankSlice, blankFrame, hlvl]
    exact ⟨t, ht, frm, slice, by rw [hd, driverNext_cur _ _ hrst]⟩
  · obtain ⟨t, ht, hd⟩ := exists_step_of_edge hi
    exact ⟨t, ht, by rw [hd, driverNext_frm _ _ hrst, if_neg notSample]⟩
  · rw [driverNext_run _ _ hrst, driverNext_run _ _ hrst, driverArm_with_cur o v i.tick notSample]
    rfl

/-- Settles O53: by induction over the edges from reset, where `frm` leaves 0 only by a sample of `cur`. -/
theorem frameIsAWholeWrittenWord : Obligations.FrameIsAWholeWrittenWord := by
  intro o is
  obtain ⟨pre, hpre, hfrm⟩ := driverRun_reset_frm o is
  have written : (driverRun o Driver.reset is).frm = 0 ∨
      ∃ i ∈ is, i.curWe = true ∧ (driverRun o Driver.reset is).frm = i.curD := by
    rw [hfrm]
    exact (driverRun_reset_cur o pre).imp id fun ⟨i, hi, hw⟩ => ⟨i, hpre.subset hi, hw⟩
  have held : FrameHeld (driverRun o Driver.reset is) :=
    driverRun_keeps o (frameHeld_driverNext o) (fun notBlank => absurd rfl notBlank) is
  exact ⟨⟨pre, hpre, hfrm⟩, written, held, fun i hrst notSample => by
    rw [driverNext_frm o _ hrst, if_neg notSample]⟩

/-- Settles O54: by induction over the edges, and a level-0 sample reads `cur`. -/
theorem curHoldsTheLastWrite : Obligations.CurHoldsTheLastWrite := by
  intro o d is i noReset hrst
  have last := driverRun_cur o d noReset
  exact ⟨last, fun hst hlvl => by rw [driverNext_frm o _ hrst, if_pos ⟨hst, hlvl⟩, last]⟩

/-- Settles O22: an operation's value depends on `s_in` alone, which it leaves, and a write on `cur_d` alone. -/
theorem evaluationAndWritesAreIdempotent : Obligations.EvaluationAndWritesAreIdempotent := by
  refine ⟨fun i s t h => ?_, fun o d i hrst hwe => ?_, fun o d i hrst hwe => ?_⟩
  · rw [exec_next_eq h]
    exact exec_eq_driveResult i _
  · simp [driverNext_cur, hrst, hwe]
  · simp [driverNext_cur, hrst, hwe]

/-- Settles O35: an edge resets `cur`, or it is CurWrite. -/
theorem curWritePort : Obligations.CurWritePort := by
  intro s i hi
  obtain ⟨t, ht, hd⟩ := exists_step_of_edge hi
  refine ⟨t, ht, fun hrst => ?_, fun hrst hwe => ?_, fun hrst hwe => ?_⟩
  · rw [hd, driverNext_rst _ _ hrst]
    rfl
  · simp [hd, driverNext_cur, hrst, hwe]
  · simp [hd, driverNext_cur, hrst, hwe]

end Sys2Proof.Proofs

/-! # Proofs: the encoding (30_encoding.md)

A word is its three fields (`opWord_fields`). The decoder is said once as an equation for each OP code, and
`opField_cases` says that these are all. The two round trips are `decode_encode`, which holds of every instruction with its operands
masked, and `encode_of_decode`; the statements about well-formed instructions and about masking follow from the two. -/

namespace Sys2Proof.Proofs

open Sys2Proof.Machine Sys2Proof.Safety Sys2Proof.Laws

/-! ## A word and its fields (R70) -/

theorem opWord_fields (w : OpWord) : opWord (opField w) (axField w) (argField w) = w := by
  have high : w.extractLsb' 8 4 ++ w.extractLsb' 6 2 = w.extractLsb' 6 6 :=
    BitVec.extractLsb'_append_extractLsb'_eq_extractLsb' rfl
  show (w.extractLsb' 8 4 ++ w.extractLsb' 6 2) ++ w.extractLsb' 0 6 = w
  rw [high]
  exact BitVec.extractLsb'_append_extractLsb'

/-- What lies within ARG is read from ARG. -/
theorem extractLsb'_opWord (op : BitVec 4) (ax : BitVec 2) (arg : BitVec 6) {start len : Nat} (h : start + len ≤ 6) :
    (opWord op ax arg).extractLsb' start len = arg.extractLsb' start len :=
  BitVec.extractLsb'_append_eq_of_add_le h

theorem extractLsb'_argField (w : OpWord) {start len : Nat} (h : start + len ≤ 6) :
    (argField w).extractLsb' start len = w.extractLsb' start len :=
  BitVec.extractLsb'_extractLsb'_of_le h

@[simp] theorem opField_opWord (op : BitVec 4) (ax : BitVec 2) (arg : BitVec 6) : opField (opWord op ax arg) = op :=
  (EncodeFields.fields_of_opWord op ax arg).1

@[simp] theorem axField_opWord (op : BitVec 4) (ax : BitVec 2) (arg : BitVec 6) : axField (opWord op ax arg) = ax :=
  (EncodeFields.fields_of_opWord op ax arg).2

@[simp] theorem argField_opWord (op : BitVec 4) (ax : BitVec 2) (arg : BitVec 6) : argField (opWord op ax arg) = arg :=
  BitVec.extractLsb'_append_eq_right

/-! ## The forms of ARG (R72, R73, R75, R76) -/

section ARG
variable (op : BitVec 4) (ax : BitVec 2)

@[simp] theorem argX_argCoords (x y z : Nat) : argX (opWord op ax (argCoords x y z)) = coord x := by
  have field : (argCoords x y z).extractLsb' 4 2 = BitVec.ofNat 2 x := by
    rw [argCoords, BitVec.extractLsb'_append_eq_of_le (by decide), BitVec.extractLsb'_append_eq_left]
  rw [argX, extractLsb'_opWord _ _ _ (by decide), field]
  exact BitVec.toNat_ofNat x 2

@[simp] theorem argY_argCoords (x y z : Nat) : argY (opWord op ax (argCoords x y z)) = coord y := by
  have field : (argCoords x y z).extractLsb' 2 2 = BitVec.ofNat 2 y := by
    rw [argCoords, BitVec.extractLsb'_append_eq_of_le (by decide), BitVec.extractLsb'_append_eq_right]
  rw [argY, extractLsb'_opWord _ _ _ (by decide), field]
  exact BitVec.toNat_ofNat y 2

@[simp] theorem argLow_argCoords (x y z : Nat) : argLow (opWord op ax (argCoords x y z)) = coord z := by
  rw [argLow, extractLsb'_opWord _ _ _ (by decide), argCoords, BitVec.extractLsb'_append_eq_right]
  exact BitVec.toNat_ofNat z 2

@[simp] theorem argLow_argTwo (l : Nat) : argLow (opWord op ax (argTwo l)) = coord l := by
  rw [argLow, extractLsb'_opWord _ _ _ (by decide), argTwo, BitVec.extractLsb'_append_eq_right]
  exact BitVec.toNat_ofNat l 2

@[simp] theorem argColumn_argFour (c : Nat) : argColumn (opWord op ax (argFour c)) = column c := by
  rw [argColumn, extractLsb'_opWord _ _ _ (by decide), argFour, BitVec.extractLsb'_append_eq_right]
  exact BitVec.toNat_ofNat c 4

theorem arg52_argTwo (l : Nat) : (opWord op ax (argTwo l)).extractLsb' 2 4 = 0#4 := by
  rw [extractLsb'_opWord _ _ _ (by decide), argTwo, BitVec.extractLsb'_append_eq_left]

theorem arg54_argFour (c : Nat) : (opWord op ax (argFour c)).extractLsb' 4 2 = 0#2 := by
  rw [extractLsb'_opWord _ _ _ (by decide), argFour, BitVec.extractLsb'_append_eq_left]

end ARG

section ARG
variable {w : OpWord}

theorem argCoords_eq_argField : argCoords (argX w) (argY w) (argLow w) = argField w := by
  have high : w.extractLsb' 4 2 ++ w.extractLsb' 2 2 = w.extractLsb' 2 4 :=
    BitVec.extractLsb'_append_extractLsb'_eq_extractLsb' rfl
  rw [argCoords, argX, argY, argLow, BitVec.ofNat_toNat, BitVec.ofNat_toNat, BitVec.ofNat_toNat, BitVec.setWidth_eq,
    BitVec.setWidth_eq, BitVec.setWidth_eq, high]
  exact BitVec.extractLsb'_append_extractLsb'_eq_extractLsb' rfl

theorem argTwo_eq_argField (h : w.extractLsb' 2 4 = 0#4) : argTwo (argLow w) = argField w := by
  rw [argTwo, argLow, BitVec.ofNat_toNat, BitVec.setWidth_eq, ← h]
  exact BitVec.extractLsb'_append_extractLsb'_eq_extractLsb' rfl

theorem argFour_eq_argField (h : w.extractLsb' 4 2 = 0#2) : argFour (argColumn w) = argField w := by
  rw [argFour, argColumn, BitVec.ofNat_toNat, BitVec.setWidth_eq, ← h]
  exact BitVec.extractLsb'_append_extractLsb'_eq_extractLsb' rfl

theorem argX_lt : argX w < 4 := BitVec.isLt _
theorem argY_lt : argY w < 4 := BitVec.isLt _
theorem argLow_lt : argLow w < 4 := BitVec.isLt _
theorem argColumn_lt : argColumn w < 16 := BitVec.isLt _

end ARG

/-! ## The two shapes of a word (R81) -/

theorem decodeAxis_code (a : Axis) : decodeAxis a.code = some a := by cases a <;> rfl

theorem code_of_decodeAxis {ax : BitVec 2} {a : Axis} (h : decodeAxis ax = some a) : ax = a.code := by
  have all : ∀ ax : BitVec 2, ∀ a ∈ decodeAxis ax, ax = a.code := by decide
  exact all ax a h

section shapes
variable {w : OpWord} {argOk : Bool} {i j : Instr} {f : Axis → Instr} {a : Axis}

theorem decodePlain_of_fields (hax : axField w = 0) (harg : argOk = true) : decodePlain w argOk i = .legal i := by
  simp [decodePlain, hax, harg]

theorem decodeWithAxis_of_fields (hax : axField w = a.code) (harg : argOk = true) :
    decodeWithAxis w argOk f = .legal (f a) := by
  simp [decodeWithAxis, hax, harg, decodeAxis_code]

theorem decodePlain_eq_legal (h : decodePlain w argOk i = .legal j) : axField w = 0 ∧ argOk = true ∧ j = i := by
  unfold decodePlain at h
  split at h
  · cases h
  · split at h
    · exact ⟨not_not.mp ‹_›, ‹_›, (Decoded.legal.inj h).symm⟩
    · cases h

theorem decodeWithAxis_eq_legal (h : decodeWithAxis w argOk f = .legal j) :
    ∃ a : Axis, axField w = a.code ∧ argOk = true ∧ j = f a := by
  unfold decodeWithAxis at h
  split at h
  · cases h
  · split at h
    · exact ⟨_, code_of_decodeAxis ‹_›, ‹_›, (Decoded.legal.inj h).symm⟩
    · cases h

end shapes

/-! ## The decoder, by OP code (R71, R81) -/

section decode
variable {w : OpWord}

theorem decode_bitindexOp (h : opField w = 0x0) :
    decode w = decodePlain w true (.bitindex (argX w) (argY w) (argLow w)) := by
  simp [decode, h]
theorem decode_pixmaskOp (h : opField w = 0x1) :
    decode w = decodePlain w true (.pixmask (argX w) (argY w) (argLow w)) := by
  simp [decode, h]
theorem decode_levelmaskOp (h : opField w = 0x2) :
    decode w = decodePlain w (w.extractLsb' 2 4 == 0#4) (.levelmask (argLow w)) := by
  simp [decode, h]
theorem decode_columnmaskOp (h : opField w = 0x3) :
    decode w = decodePlain w (w.extractLsb' 4 2 == 0#2) (.columnmask (argColumn w)) := by
  simp [decode, h]
theorem decode_slicemaskOp (h : opField w = 0x4) :
    decode w = decodeWithAxis w (w.extractLsb' 2 4 == 0#4) (slicemask (argLow w)) := by
  simp [decode, h]
theorem decode_shiftOp (h : opField w = 0x5) : decode w = decodeWithAxis w (argField w == 0#6) shift := by
  simp [decode, h]
theorem decode_unshiftOp (h : opField w = 0x6) : decode w = decodeWithAxis w (argField w == 0#6) unshift := by
  simp [decode, h]
theorem decode_lvlsliceOp (h : opField w = 0x7) :
    decode w = decodePlain w (w.extractLsb' 2 4 == 0#4) (.lvlslice (argLow w)) := by
  simp [decode, h]
theorem decode_statemaskOp (h : opField w = 0x8) : decode w = decodePlain w (argField w == 0#6) .statemask := by
  simp [decode, h]
theorem decode_reservedOp (h : 0x9 ≤ (opField w).toNat) : decode w = .illegal .reservedOp := by
  unfold decode
  split
  case h_10 => rfl
  all_goals omega

theorem opField_cases (w : OpWord) :
    opField w = 0x0 ∨ opField w = 0x1 ∨ opField w = 0x2 ∨ opField w = 0x3 ∨ opField w = 0x4 ∨ opField w = 0x5 ∨
      opField w = 0x6 ∨ opField w = 0x7 ∨ opField w = 0x8 ∨ 0x9 ≤ (opField w).toNat := by
  generalize opField w = op
  revert op
  decide

end decode

/-! ## The round trips -/

theorem encode_slicemask (k : Nat) (a : Axis) : encode (slicemask k a) = opWord 0x4 a.code (argTwo k) := by
  cases a <;> rfl
theorem encode_shift (a : Axis) : encode (shift a) = opWord 0x5 a.code 0 := by cases a <;> rfl
theorem encode_unshift (a : Axis) : encode (unshift a) = opWord 0x6 a.code 0 := by cases a <;> rfl

theorem decode_encode_slicemask (k : Nat) (a : Axis) :
    decode (encode (slicemask k a)) = .legal (slicemask (coord k) a) := by
  rw [encode_slicemask, decode_slicemaskOp (opField_opWord ..), argLow_argTwo]
  exact decodeWithAxis_of_fields (axField_opWord ..) (by simp [arg52_argTwo])

theorem decode_encode_shift (a : Axis) : decode (encode (shift a)) = .legal (shift a) := by
  rw [encode_shift, decode_shiftOp (opField_opWord ..)]
  exact decodeWithAxis_of_fields (axField_opWord ..) (by simp)

theorem decode_encode_unshift (a : Axis) : decode (encode (unshift a)) = .legal (unshift a) := by
  rw [encode_unshift, decode_unshiftOp (opField_opWord ..)]
  exact decodeWithAxis_of_fields (axField_opWord ..) (by simp)

/-- The word of any instruction decodes to that instruction with its operands masked (R71, R80). -/
theorem decode_encode (i : Instr) : decode (encode i) = .legal (maskOperands i) := by
  cases i with
  | bitindex x y z =>
    rw [encode, decode_bitindexOp (opField_opWord ..), argX_argCoords, argY_argCoords, argLow_argCoords]
    exact decodePlain_of_fields (axField_opWord ..) rfl
  | pixmask x y z =>
    rw [encode, decode_pixmaskOp (opField_opWord ..), argX_argCoords, argY_argCoords, argLow_argCoords]
    exact decodePlain_of_fields (axField_opWord ..) rfl
  | levelmask l =>
    rw [encode, decode_levelmaskOp (opField_opWord ..), argLow_argTwo]
    exact decodePlain_of_fields (axField_opWord ..) (by simp [arg52_argTwo])
  | columnmask c =>
    rw [encode, decode_columnmaskOp (opField_opWord ..), argColumn_argFour]
    exact decodePlain_of_fields (axField_opWord ..) (by simp [arg54_argFour])
  | slicemaskX k => exact decode_encode_slicemask k .x
  | slicemaskY k => exact decode_encode_slicemask k .y
  | slicemaskZ k => exact decode_encode_slicemask k .z
  | shiftX => exact decode_encode_shift .x
  | shiftY => exact decode_encode_shift .y
  | shiftZ => exact decode_encode_shift .z
  | unshiftX => exact decode_encode_unshift .x
  | unshiftY => exact decode_encode_unshift .y
  | unshiftZ => exact decode_encode_unshift .z
  | lvlslice l =>
    rw [encode, decode_lvlsliceOp (opField_opWord ..), argLow_argTwo]
    exact decodePlain_of_fields (axField_opWord ..) (by simp [arg52_argTwo])
  | statemask =>
    rw [encode, decode_statemaskOp (opField_opWord ..)]
    exact decodePlain_of_fields (axField_opWord ..) (by simp)

theorem eq_opWord_of_fields {w : OpWord} {op : BitVec 4} {ax : BitVec 2} {arg : BitVec 6} (hop : opField w = op)
    (hax : axField w = ax) (harg : arg = argField w) : opWord op ax arg = w := by
  rw [← hop, ← hax, harg, opWord_fields]

/-- A legal word is the word of the instruction it decodes to, whose operands fit their fields (R81). -/
theorem encode_of_decode {w : OpWord} {i : Instr} (h : decode w = .legal i) : encode i = w ∧ i.wf = true := by
  obtain hop | hop | hop | hop | hop | hop | hop | hop | hop | hop := opField_cases w
  · rw [decode_bitindexOp hop] at h
    obtain ⟨hax, -, rfl⟩ := decodePlain_eq_legal h
    exact ⟨eq_opWord_of_fields hop hax argCoords_eq_argField, by simp [Instr.wf, argX_lt, argY_lt, argLow_lt]⟩
  · rw [decode_pixmaskOp hop] at h
    obtain ⟨hax, -, rfl⟩ := decodePlain_eq_legal h
    exact ⟨eq_opWord_of_fields hop hax argCoords_eq_argField, by simp [Instr.wf, argX_lt, argY_lt, argLow_lt]⟩
  · rw [decode_levelmaskOp hop] at h
    obtain ⟨hax, harg, rfl⟩ := decodePlain_eq_legal h
    exact ⟨eq_opWord_of_fields hop hax (argTwo_eq_argField (by simpa using harg)), by simp [Instr.wf, argLow_lt]⟩
  · rw [decode_columnmaskOp hop] at h
    obtain ⟨hax, harg, rfl⟩ := decodePlain_eq_legal h
    exact ⟨eq_opWord_of_fields hop hax (argFour_eq_argField (by simpa using harg)), by simp [Instr.wf, argColumn_lt]⟩
  · rw [decode_slicemaskOp hop] at h
    obtain ⟨a, hax, harg, rfl⟩ := decodeWithAxis_eq_legal h
    rw [encode_slicemask]
    exact ⟨eq_opWord_of_fields hop hax (argTwo_eq_argField (by simpa using harg)),
      by cases a <;> simp [slicemask, Instr.wf, argLow_lt]⟩
  · rw [decode_shiftOp hop] at h
    obtain ⟨a, hax, harg, rfl⟩ := decodeWithAxis_eq_legal h
    rw [encode_shift]
    exact ⟨eq_opWord_of_fields hop hax (by simpa using (eq_of_beq harg).symm), by cases a <;> rfl⟩
  · rw [decode_unshiftOp hop] at h
    obtain ⟨a, hax, harg, rfl⟩ := decodeWithAxis_eq_legal h
    rw [encode_unshift]
    exact ⟨eq_opWord_of_fields hop hax (eq_of_beq harg).symm, by cases a <;> rfl⟩
  · rw [decode_lvlsliceOp hop] at h
    obtain ⟨hax, harg, rfl⟩ := decodePlain_eq_legal h
    exact ⟨eq_opWord_of_fields hop hax (argTwo_eq_argField (by simpa using harg)), by simp [Instr.wf, argLow_lt]⟩
  · rw [decode_statemaskOp hop] at h
    obtain ⟨hax, harg, rfl⟩ := decodePlain_eq_legal h
    exact ⟨eq_opWord_of_fields hop hax (eq_of_beq harg).symm, rfl⟩
  · rw [decode_reservedOp hop] at h
    cases h

theorem maskOperands_of_wf {i : Instr} (h : i.wf = true) : maskOperands i = i := by
  cases i <;> simp_all [maskOperands, Instr.wf]

/-- Masking keeps the word, and its result fits the fields. -/
theorem encode_maskOperands (i : Instr) : encode (maskOperands i) = encode i ∧ (maskOperands i).wf = true :=
  encode_of_decode (decode_encode i)

theorem decode_eq_legal_iff {w : OpWord} {i : Instr} : decode w = .legal i ↔ encode i = w ∧ i.wf = true := by
  refine ⟨encode_of_decode, ?_⟩
  rintro ⟨rfl, hwf⟩
  rw [decode_encode, maskOperands_of_wf hwf]

theorem opValue_maskOperands (i : Instr) (sIn : LedState) : opValue (maskOperands i) sIn = opValue i sIn := by
  cases i <;> simp [maskOperands, opValue, bitIndex, pixMask, levelMask, columnMask, axisSliceMask, levelSlice]

theorem opValue_of_not_readsSIn {i : Instr} (h : readsSIn i = false) (v v' : LedState) :
    opValue i v = opValue i v' := by
  cases i <;> simp_all [readsSIn, opValue]

/-! ## The obligations -/

/-- Settles O1: the word decodes to the instruction with masked operands, and masking leaves operands in range alone. -/
theorem decodeOfEncodeIsTheInstruction : Obligations.DecodeOfEncodeIsTheInstruction := fun i hwf => by
  rw [decode_encode, maskOperands_of_wf hwf]

/-- Settles O2: case by case over the OP codes, the fields of a legal word are those of its instruction. -/
theorem encodeOfDecodeIsTheWord : Obligations.EncodeOfDecodeIsTheWord := fun _ _ => encode_of_decode

/-- Settles O20: masking is what decoding an instruction's own word does, and a value is made of masked operands. -/
theorem operandsOutOfRangeAreMasked : Obligations.OperandsOutOfRangeAreMasked := by
  refine ⟨fun w i h => (encode_of_decode h).2, fun i s => ?_, fun i => (encode_maskOperands i).symm,
    fun i => maskOperands_of_wf⟩
  rw [exec_eq_driveResult, exec_eq_driveResult, opValue_maskOperands]

/-- Settles O21: the outputs are `opValue` of `s_in` and 0, and `opValue` is constant where `s_in` is not read. -/
theorem operationsDependOnSInOnly : Obligations.OperationsDependOnSInOnly := by
  intro i s s' t t' h h' agree
  rw [exec_next_eq h, exec_next_eq h']
  simp only [driveResult_rOut, driveResult_illegal, and_true]
  cases reads : readsSIn i with
  | true => rw [agree reads]
  | false => exact opValue_of_not_readsSIn reads _ _

end Sys2Proof.Proofs

/-! # Proofs: the case list, the opcode table and the illegal words (30_encoding.md R81, R82, R85)

A word matches a row of the table exactly when its fields meet the row's line of R81's case list
(`and_opWord_eq_iff`). The legal words are counted through `wfInstrs`, the instructions whose operands fit their fields:
`encode` maps them one to one onto the legal words. -/

namespace Sys2Proof.Proofs

open Sys2Proof.Machine Sys2Proof.Safety Sys2Proof.Laws

/-! ## The case list and the opcode table (R81) -/

/-- R81's case list, over the fields of a word. -/
def caseList (w : OpWord) : Option Instr :=
  if opField w = 0x0 ∧ axField w = 0 then some (.bitindex (argX w) (argY w) (argLow w))
  else if opField w = 0x1 ∧ axField w = 0 then some (.pixmask (argX w) (argY w) (argLow w))
  else if opField w = 0x2 ∧ axField w = 0 ∧ w.extractLsb' 2 4 = 0 then some (.levelmask (argLow w))
  else if opField w = 0x3 ∧ axField w = 0 ∧ w.extractLsb' 4 2 = 0 then some (.columnmask (argColumn w))
  else if opField w = 0x4 ∧ axField w = 0 ∧ w.extractLsb' 2 4 = 0 then some (.slicemaskX (argLow w))
  else if opField w = 0x4 ∧ axField w = 1 ∧ w.extractLsb' 2 4 = 0 then some (.slicemaskY (argLow w))
  else if opField w = 0x4 ∧ axField w = 2 ∧ w.extractLsb' 2 4 = 0 then some (.slicemaskZ (argLow w))
  else if opField w = 0x5 ∧ axField w = 0 ∧ argField w = 0 then some .shiftX
  else if opField w = 0x5 ∧ axField w = 1 ∧ argField w = 0 then some .shiftY
  else if opField w = 0x5 ∧ axField w = 2 ∧ argField w = 0 then some .shiftZ
  else if opField w = 0x6 ∧ axField w = 0 ∧ argField w = 0 then some .unshiftX
  else if opField w = 0x6 ∧ axField w = 1 ∧ argField w = 0 then some .unshiftY
  else if opField w = 0x6 ∧ axField w = 2 ∧ argField w = 0 then some .unshiftZ
  else if opField w = 0x7 ∧ axField w = 0 ∧ w.extractLsb' 2 4 = 0 then some (.lvlslice (argLow w))
  else if opField w = 0x8 ∧ axField w = 0 ∧ argField w = 0 then some .statemask
  else none

theorem axField_cases (w : OpWord) : axField w = 0 ∨ axField w = 1 ∨ axField w = 2 ∨ axField w = 3 := by
  generalize axField w = ax
  revert ax
  decide

theorem opField_ne_of_reserved {w : OpWord} (h : 0x9 ≤ (opField w).toNat) {n : Nat} (hn : n < 0x9) :
    opField w ≠ BitVec.ofNat 4 n := by
  intro e
  rw [e, BitVec.toNat_ofNat] at h
  omega

theorem decodePlain_instr? (w : OpWord) (argOk : Bool) (i : Instr) :
    (decodePlain w argOk i).instr? = if axField w = 0 ∧ argOk = true then some i else none := by
  unfold decodePlain
  split
  · simp_all [Decoded.instr?]
  · split <;> simp_all [Decoded.instr?]

theorem decodeWithAxis_instr? (w : OpWord) (argOk : Bool) (f : Axis → Instr) :
    (decodeWithAxis w argOk f).instr? = if argOk = true then (decodeAxis (axField w)).map f else none := by
  unfold decodeWithAxis
  split
  · simp_all [Decoded.instr?]
  · split <;> simp_all [Decoded.instr?]

theorem decode_instr?_eq_caseList (w : OpWord) : (decode w).instr? = caseList w := by
  obtain hop | hop | hop | hop | hop | hop | hop | hop | hop | hop := opField_cases w
  · simp [decode_bitindexOp hop, decodePlain_instr?, caseList, hop]
  · simp [decode_pixmaskOp hop, decodePlain_instr?, caseList, hop]
  · simp [decode_levelmaskOp hop, decodePlain_instr?, caseList, hop]
  · simp [decode_columnmaskOp hop, decodePlain_instr?, caseList, hop]
  · obtain hax | hax | hax | hax := axField_cases w <;>
    simp [decode_slicemaskOp hop, decodeWithAxis_instr?, decodeAxis, slicemask, caseList, hop, hax]
  · obtain hax | hax | hax | hax := axField_cases w <;>
    simp [decode_shiftOp hop, decodeWithAxis_instr?, decodeAxis, shift, caseList, hop, hax]
  · obtain hax | hax | hax | hax := axField_cases w <;>
    simp [decode_unshiftOp hop, decodeWithAxis_instr?, decodeAxis, unshift, caseList, hop, hax]
  · simp [decode_lvlsliceOp hop, decodePlain_instr?, caseList, hop]
  · simp [decode_statemaskOp hop, decodePlain_instr?, caseList, hop]
  · simp [decode_reservedOp hop, Decoded.instr?, caseList, opField_ne_of_reserved hop]

theorem opWord_and (op op' : BitVec 4) (ax ax' : BitVec 2) (arg arg' : BitVec 6) :
    opWord op ax arg &&& opWord op' ax' arg' = opWord (op &&& op') (ax &&& ax') (arg &&& arg') := by
  show (op ++ ax ++ arg) &&& (op' ++ ax' ++ arg') = _
  rw [BitVec.and_append, BitVec.and_append]
  rfl

theorem opWord_inj {op op' : BitVec 4} {ax ax' : BitVec 2} {arg arg' : BitVec 6} :
    opWord op ax arg = opWord op' ax' arg' ↔ op = op' ∧ ax = ax' ∧ arg = arg' := by
  refine ⟨fun h => ⟨?_, ?_, ?_⟩, by rintro ⟨rfl, rfl, rfl⟩; rfl⟩
  · simpa using congrArg opField h
  · simpa using congrArg axField h
  · simpa using congrArg argField h

/-- A row of the table, whose mask has every bit of OP and AX, asks for two fields and for its ARG bits to be 0. -/
theorem and_opWord_eq_iff (w : OpWord) (op : BitVec 4) (ax : BitVec 2) (m : BitVec 6) :
    w &&& opWord 0xF 0b11 m = opWord op ax 0 ↔ opField w = op ∧ axField w = ax ∧ argField w &&& m = 0 := by
  have masked : w &&& opWord 0xF 0b11 m = opWord (opField w) (axField w) (argField w &&& m) := by
    conv_lhs => rw [← opWord_fields w, opWord_and]
    congr 1
    · exact BitVec.and_allOnes
    · exact BitVec.and_allOnes
  rw [masked, opWord_inj]

/-- opcode_table.json as (mnemonic, OP, AX, the ARG bits that must be 0). -/
def fieldTable : List (String × BitVec 4 × BitVec 2 × BitVec 6) :=
  [("BITINDEX", 0x0, 0, 0), ("PIXMASK", 0x1, 0, 0), ("LEVELMASK", 0x2, 0, 0b111100), ("COLUMNMASK", 0x3, 0, 0b110000),
   ("SLICEMASK.X", 0x4, 0, 0b111100), ("SLICEMASK.Y", 0x4, 1, 0b111100), ("SLICEMASK.Z", 0x4, 2, 0b111100),
   ("SHIFT.X", 0x5, 0, 0b111111), ("SHIFT.Y", 0x5, 1, 0b111111), ("SHIFT.Z", 0x5, 2, 0b111111),
   ("UNSHIFT.X", 0x6, 0, 0b111111), ("UNSHIFT.Y", 0x6, 1, 0b111111), ("UNSHIFT.Z", 0x6, 2, 0b111111),
   ("LVLSLICE", 0x7, 0, 0b111100), ("STATEMASK", 0x8, 0, 0b111111)]

theorem opcodeTable_eq : opcodeTable =
    fieldTable.map fun r => (r.1, opWord r.2.1 r.2.2.1 0, opWord 0xF 0b11 r.2.2.2) := by rfl

theorem rowsMatching_eq (w : OpWord) : rowsMatching w =
    (fieldTable.filter fun r => opField w = r.2.1 ∧ axField w = r.2.2.1 ∧ argField w &&& r.2.2.2 = 0).map (·.1) := by
  rw [rowsMatching, opcodeTable_eq, List.filter_map, List.map_map]
  congr 1
  refine List.filter_congr fun r _ => ?_
  simp only [Function.comp_apply, Bool.beq_eq_decide_eq, and_opWord_eq_iff]

theorem and_eq_zero_iff_arg52 (w : OpWord) : argField w &&& 0b111100#6 = 0#6 ↔ w.extractLsb' 2 4 = 0#4 := by
  rw [← extractLsb'_argField w (by decide)]
  generalize argField w = arg
  revert arg
  decide

theorem and_eq_zero_iff_arg54 (w : OpWord) : argField w &&& 0b110000#6 = 0#6 ↔ w.extractLsb' 4 2 = 0#2 := by
  rw [← extractLsb'_argField w (by decide)]
  generalize argField w = arg
  revert arg
  decide

theorem and_allOnes_arg (w : OpWord) : argField w &&& 0b111111#6 = argField w := BitVec.and_allOnes

theorem map_fst_ite {α β : Type} (c : Prop) [Decidable c] (r : α × β) :
    (if c then [r] else []).map Prod.fst = (if c then some r.1 else none).toList := by split <;> rfl

/-- The rows a word matches are those of the instruction that R81's case list gives it. -/
theorem rowsMatching_eq_caseList (w : OpWord) : rowsMatching w = ((caseList w).map Instr.mnemonic).toList := by
  have arg52 := and_eq_zero_iff_arg52 w
  have arg54 := and_eq_zero_iff_arg54 w
  have arg50 := and_allOnes_arg w
  rw [rowsMatching_eq]
  obtain hop | hop | hop | hop | hop | hop | hop | hop | hop | hop := opField_cases w
  · simp [fieldTable, List.filter_cons, caseList, Instr.mnemonic, map_fst_ite, hop]
  · simp [fieldTable, List.filter_cons, caseList, Instr.mnemonic, map_fst_ite, hop]
  · simp [fieldTable, List.filter_cons, caseList, Instr.mnemonic, map_fst_ite, hop, arg52]
  · simp [fieldTable, List.filter_cons, caseList, Instr.mnemonic, map_fst_ite, hop, arg54]
  · obtain hax | hax | hax | hax := axField_cases w <;>
    simp [fieldTable, List.filter_cons, caseList, Instr.mnemonic, map_fst_ite, hop, hax, arg52]
  · obtain hax | hax | hax | hax := axField_cases w <;>
    simp [fieldTable, List.filter_cons, caseList, Instr.mnemonic, map_fst_ite, hop, hax, arg50]
  · obtain hax | hax | hax | hax := axField_cases w <;>
    simp [fieldTable, List.filter_cons, caseList, Instr.mnemonic, map_fst_ite, hop, hax, arg50]
  · simp [fieldTable, List.filter_cons, caseList, Instr.mnemonic, map_fst_ite, hop, arg52]
  · simp [fieldTable, List.filter_cons, caseList, Instr.mnemonic, map_fst_ite, hop, arg50]
  · simp [fieldTable, caseList, opField_ne_of_reserved hop]

/-! ## Legal and illegal words (R82, R85) -/

theorem legal_eq_true_iff {w : OpWord} : legal w = true ↔ ∃ i, decode w = .legal i := by
  unfold legal
  cases decode w <;> simp [Decoded.instr?]

theorem legal_eq_false_iff {w : OpWord} : legal w = false ↔ ∃ why, decode w = .illegal why := by
  unfold legal
  cases decode w <;> simp [Decoded.instr?]

/-- The 64 triples of coordinates, in the order of their bit index. -/
def coordTriples : List (Nat × Nat × Nat) :=
  (List.range 4).flatMap fun x => (List.range 4).flatMap fun y => (List.range 4).map fun z => (x, y, z)

/-- Every instruction whose operands fit their fields, in the order of their words. -/
def wfInstrs : List Instr :=
  List.flatten
    [coordTriples.map fun p => Instr.bitindex p.1 p.2.1 p.2.2, coordTriples.map fun p => Instr.pixmask p.1 p.2.1 p.2.2,
     (List.range 4).map Instr.levelmask, (List.range 16).map Instr.columnmask, (List.range 4).map Instr.slicemaskX,
     (List.range 4).map Instr.slicemaskY, (List.range 4).map Instr.slicemaskZ,
     [.shiftX, .shiftY, .shiftZ, .unshiftX, .unshiftY, .unshiftZ], (List.range 4).map Instr.lvlslice, [.statemask]]

theorem mem_wfInstrs {i : Instr} : i ∈ wfInstrs ↔ i.wf = true := by
  cases i <;> simp [wfInstrs, coordTriples, Instr.wf, and_assoc]

/-- The legal words as ranges: the first word and how many. -/
def legalRanges : List (Nat × Nat) :=
  [(0x000, 64), (0x100, 64), (0x200, 4), (0x300, 16), (0x400, 4), (0x440, 4), (0x480, 4), (0x500, 1), (0x540, 1),
   (0x580, 1), (0x600, 1), (0x640, 1), (0x680, 1), (0x700, 4), (0x800, 1)]

theorem encode_wfInstrs :
    (wfInstrs.map encode).map BitVec.toNat = legalRanges.flatMap fun r => List.range' r.1 r.2 := by rfl

theorem nodup_encode_wfInstrs : (wfInstrs.map encode).Nodup := by
  have apart : legalRanges.Pairwise fun r q => r.1 + r.2 ≤ q.1 := by decide
  refine .of_map BitVec.toNat ?_
  rw [encode_wfInstrs, List.nodup_flatMap]
  refine ⟨fun r _ => List.nodup_range', apart.imp fun {r q} h n hr hq => ?_⟩
  rw [List.mem_range'_1] at hr hq
  omega

/-- The 4096 operation words. -/
def opWords : List OpWord := (List.range 4096).map (BitVec.ofNat 12)

theorem mem_opWords (w : OpWord) : w ∈ opWords :=
  List.mem_map.mpr ⟨w.toNat, List.mem_range.mpr w.isLt, BitVec.ofNat_toNat .. |>.trans w.setWidth_eq⟩

theorem nodup_opWords : opWords.Nodup := by
  refine List.nodup_range.map_on fun m hm n hn h => ?_
  have values : m % 4096 = n % 4096 := congrArg BitVec.toNat h
  rwa [Nat.mod_eq_of_lt (List.mem_range.mp hm), Nat.mod_eq_of_lt (List.mem_range.mp hn)] at values

/-- The words that decode to an instruction with `p` are the words of the well-formed instructions with `p`. -/
theorem filter_opWords_perm (p : Instr → Bool) :
    (opWords.filter fun w => ((decode w).instr?.map p).getD false).Perm ((wfInstrs.filter p).map encode) := by
  refine (List.perm_ext_iff_of_nodup (nodup_opWords.filter _) ?_).mpr fun w => ?_
  · exact nodup_encode_wfInstrs.sublist (List.filter_sublist.map encode)
  · simp only [List.mem_filter, mem_opWords, true_and, List.mem_map, mem_wfInstrs]
    constructor
    · intro h
      cases hd : decode w with
      | legal i =>
        obtain ⟨henc, hwf⟩ := encode_of_decode hd
        exact ⟨i, ⟨hwf, by simpa [hd, Decoded.instr?] using h⟩, henc⟩
      | illegal why => simp [hd, Decoded.instr?] at h
    · rintro ⟨i, ⟨hwf, hp⟩, rfl⟩
      simp [decode_encode, maskOperands_of_wf hwf, Decoded.instr?, hp]

theorem count_opWords (p : Instr → Bool) :
    (opWords.filter fun w => ((decode w).instr?.map p).getD false).length = (wfInstrs.filter p).length := by
  rw [(filter_opWords_perm p).length_eq, List.length_map]

theorem count_legal : (opWords.filter legal).length = 171 := by
  have isLegal : legal = fun w => ((decode w).instr?.map fun _ => true).getD false := by
    funext w
    unfold legal
    cases (decode w).instr? <;> rfl
  rw [isLegal, count_opWords, List.filter_true]
  rfl

theorem count_illegal : (opWords.filter fun w => !legal w).length = 3925 := by
  have all := List.length_eq_length_filter_add (l := opWords) legal
  have total : opWords.length = 4096 := by rw [opWords, List.length_map, List.length_range]
  rw [total, count_legal] at all
  exact Nat.add_left_cancel (n := 171) all.symm

/-- R85's list of the illegal words. -/
theorem legal_eq_false_iff_fields (w : OpWord) : legal w = false ↔
    0x9 ≤ (opField w).toNat ∨
    (opField w = 0x4 ∨ opField w = 0x5 ∨ opField w = 0x6) ∧ axField w = 0b11 ∨
    ((opField w).toNat ≤ 0x3 ∨ opField w = 0x7 ∨ opField w = 0x8) ∧ axField w ≠ 0b00 ∨
    (opField w = 0x2 ∨ opField w = 0x4 ∨ opField w = 0x7) ∧ (argField w).extractLsb' 2 4 ≠ 0 ∨
    opField w = 0x3 ∧ (argField w).extractLsb' 4 2 ≠ 0 ∨
    (opField w = 0x5 ∨ opField w = 0x6 ∨ opField w = 0x8) ∧ argField w ≠ 0 := by
  rw [extractLsb'_argField w (by decide), extractLsb'_argField w (by decide), legal, decode_instr?_eq_caseList]
  obtain hop | hop | hop | hop | hop | hop | hop | hop | hop | hop := opField_cases w
  · simp [caseList, hop]
  · simp [caseList, hop]
  · simp [caseList, hop, imp_iff_not_or]
  · simp [caseList, hop, imp_iff_not_or]
  · obtain hax | hax | hax | hax := axField_cases w <;> simp [caseList, hop, hax]
  · obtain hax | hax | hax | hax := axField_cases w <;> simp [caseList, hop, hax]
  · obtain hax | hax | hax | hax := axField_cases w <;> simp [caseList, hop, hax]
  · simp [caseList, hop, imp_iff_not_or]
  · simp [caseList, hop, imp_iff_not_or]
  · simp [caseList, opField_ne_of_reserved hop, hop]

/-! ## The obligations -/

/-- Settles O3: decoder and table both follow R81's case list, whose fields of ARG are fields of the word. -/
theorem decoderFollowsTheCaseList : Obligations.DecoderFollowsTheCaseList := by
  intro w
  refine ⟨?_, by rw [rowsMatching_eq_caseList, decode_instr?_eq_caseList]⟩
  have field (start len : Nat) (h : start + len ≤ 6) :
      (w.extractLsb' 0 6).extractLsb' start len = w.extractLsb' start len := extractLsb'_argField w h
  simp only [field 4 2 (by decide), field 2 2 (by decide), field 0 2 (by decide), field 2 4 (by decide),
    field 0 4 (by decide)]
  exact decode_instr?_eq_caseList w

/-- Settles O4: the words that decode to an operation are as many as its well-formed instructions. -/
theorem legalWordCounts : Obligations.LegalWordCounts := by
  refine ⟨count_legal, count_illegal, ?_, ?_, ?_, ?_, ?_, ?_, ?_, ?_, ?_⟩
  all_goals exact (count_opWords _).trans (by decide)

/-- Settles O5: each word is the word of its well-formed instruction. -/
theorem wordsOfTheSpecDecode : Obligations.WordsOfTheSpecDecode := by
  simp only [Obligations.WordsOfTheSpecDecode, decode_eq_legal_iff]
  decide

/-- Settles O6: which words are illegal by the cases of OP, and what a step does with either by the laws of `step`. -/
theorem illegalWordOutputsZeroAndFlag : Obligations.IllegalWordOutputsZeroAndFlag := by
  refine ⟨legal_eq_false_iff_fields, fun s hs hw => ?_, fun s hs hw => ?_⟩
  · obtain ⟨why, hd⟩ := legal_eq_false_iff.mp hw
    exact step_illegal hs hd
  · obtain ⟨i, hd⟩ := legal_eq_true_iff.mp hw
    exact ⟨_, step_legal hs hd (exec_eq_driveResult ..), by simp, by simp [clockEdge_driver]⟩

end Sys2Proof.Proofs

/-! # Proofs: the serial frame of a level (30_encoding.md R89, 42_refresh_driver.md R190)

A driver is `AtCycle` n of a level when it shows the n-th row of R190's table. From a BLANK cycle each edge leads to the
next cycle (`driverRun_atCycle`), so the pins are functions of the cycle number, and the rising edges are counted
there. -/

namespace Sys2Proof.Proofs

open Sys2Proof.Machine Sys2Proof.Safety Sys2Proof.Laws

/-! ## The cycles of a level (R190) -/

/-- The driver shows cycle `n` ≥ 1 of the level `lvl` with the slice `sl`. -/
def AtCycle (o : ShiftOrder) (sl : Slice) (lvl : BitVec 2) (n : Nat) (d : Driver) : Prop :=
  rowOf d = timelineRow o sl lvl n ∧ d.lvl = lvl ∧ d.sl = sl

section AtCycle
variable {o : ShiftOrder} {sl : Slice} {lvl : BitVec 2} {d : Driver}

/-- SHIFT, phase 0 of bit `k`. -/
theorem timelineRow_phase0 {k : Nat} (h : k < 16) : timelineRow o sl lvl (2 * k + 1) =
    { st := .shift, bc := BitVec.ofNat 4 k, ph := false, pins := { darkPins with ser := serialBit o sl k } } := by
  have low : 2 * k + 1 ≤ 32 := by omega
  simp [timelineRow, low, darkPins]

/-- SHIFT, phase 1 of bit `k`. -/
theorem timelineRow_phase1 {k : Nat} (h : k < 16) : timelineRow o sl lvl (2 * k + 2) =
    { st := .shift, bc := BitVec.ofNat 4 k, ph := true
      pins := { darkPins with ser := serialBit o sl k, srclk := true } } := by
  have low : 2 * k + 2 ≤ 32 := by omega
  have bit : (2 * k + 1) / 2 = k := by omega
  simp [timelineRow, low, bit, darkPins]

theorem atCycle_blankArm : AtCycle o (blankSlice d) d.lvl 1 (blankArm o d) := ⟨rfl, rfl, rfl⟩

/-- Every arm from SHIFT to ENABLE leads to the next cycle. -/
theorem atCycle_driverArm {n : Nat} (t : Bool) (pos : 1 ≤ n) (lt : n < 34) (h : AtCycle o sl lvl n d) :
    AtCycle o sl lvl (n + 1) (driverArm o d t) := by
  obtain ⟨row, rfl, rfl⟩ := h
  obtain ⟨k, rfl | rfl⟩ : ∃ k, n = 2 * k + 1 ∨ n = 2 * k + 2 := ⟨(n - 1) / 2, by omega⟩
  · rcases Nat.lt_or_ge k 16 with hk | hk
    · rw [timelineRow_phase0 hk] at row
      rw [driverArm_rise o t (congrArg Row.st row) (congrArg Row.ph row)]
      refine ⟨?_, rfl, rfl⟩
      calc rowOf (shiftRise d)
          = { rowOf d with ph := true, pins := { (rowOf d).pins with srclk := true } } := rfl
        _ = timelineRow o d.sl d.lvl (2 * k + 2) := by rw [row, timelineRow_phase1 hk]
    · obtain rfl : k = 16 := by omega
      rw [driverArm_latch o t (congrArg Row.st row)]
      refine ⟨?_, rfl, rfl⟩
      calc rowOf (latchArm d)
          = { rowOf d with
              st := .enable
              pins := { (rowOf d).pins with rclk := false, oeN := false, cath := onehot4 d.lvl } } := rfl
        _ = timelineRow o d.sl d.lvl 34 := by rw [row]; rfl
  · rw [timelineRow_phase1 (by omega)] at row
    have bit : d.bc = BitVec.ofNat 4 k := congrArg Row.bc row
    rcases Nat.lt_or_ge k 15 with hk | hk
    · have more : d.bc ≠ 15 := by rw [bit]; bv_omega
      have next : d.bc + 1 = BitVec.ofNat 4 (k + 1) := by rw [bit]; bv_omega
      have value : (BitVec.ofNat 4 (k + 1)).toNat = k + 1 := by bv_omega
      rw [driverArm_nextBit o t (congrArg Row.st row) (congrArg Row.ph row) more]
      refine ⟨?_, rfl, rfl⟩
      calc rowOf (shiftNextBit o d)
          = { rowOf d with
              bc := d.bc + 1
              ph := false
              pins := { (rowOf d).pins with ser := serialBit o d.sl (d.bc + 1).toNat, srclk := false } } := rfl
        _ = timelineRow o d.sl d.lvl (2 * (k + 1) + 1) := by
          rw [row, next, value, timelineRow_phase0 (by omega)]
          rfl
    · obtain rfl : k = 15 := by omega
      rw [driverArm_toLatch o t (congrArg Row.st row) (congrArg Row.ph row) bit]
      refine ⟨?_, rfl, rfl⟩
      calc rowOf (shiftToLatch d)
          = { rowOf d with
              st := .latch
              ph := false
              pins := { (rowOf d).pins with ser := false, srclk := false, rclk := true } } := rfl
        _ = timelineRow o d.sl d.lvl 33 := by rw [row]; rfl

theorem atCycle_driverNext {n : Nat} {i : PortInputs} (hrst : i.rst = false) (pos : 1 ≤ n) (lt : n < 34)
    (h : AtCycle o sl lvl n d) : AtCycle o sl lvl (n + 1) (driverNext o d i) := by
  rw [driverNext_run o d hrst]
  exact atCycle_driverArm i.tick pos lt h

/-- From a BLANK cycle the n-th edge leads to cycle n, whatever is written and whatever ticks come before cycle 34. -/
theorem driverRun_atCycle (hst : d.st = .blank) {is : List PortInputs} (noReset : NoReset is) (pos : 1 ≤ is.length)
    (le : is.length ≤ 34) : AtCycle o (blankSlice d) d.lvl is.length (driverRun o d is) := by
  induction is using List.reverseRecOn with
  | nil => simp at pos
  | append_singleton is i ih =>
    have hrst : i.rst = false := noReset i (by simp)
    have hlen : (is ++ [i]).length = is.length + 1 := List.length_append
    rw [hlen] at le ⊢
    rw [driverRun_snoc]
    rcases Nat.eq_zero_or_pos is.length with empty | nonempty
    · rw [List.length_eq_zero_iff.mp empty, driverRun_nil, driverNext_run o d hrst, driverArm_blank o _ hst]
      exact atCycle_blankArm
    · exact atCycle_driverNext hrst nonempty (by omega) (ih (fun j hj => noReset j (by simp [hj])) nonempty (by omega))

end AtCycle

/-! ## The rising edges of a trace -/

theorem risesOf_driverTrace_cons (f : Driver → Bool) (o : ShiftOrder) (d : Driver) (i : PortInputs)
    (is : List PortInputs) : risesOf f (driverTrace o d (i :: is)) =
      (if rises (f d) (f (driverNext o d i)) then [driverNext o d i] else []) ++
        risesOf f (driverTrace o (driverNext o d i) is) := by
  cases is <;> rfl

/-- The pin `f` rises at edge n + 1 where it rises from the driver after n edges to the one after n + 1. -/
theorem risesOf_driverTrace (f : Driver → Bool) (o : ShiftOrder) (d : Driver) (is : List PortInputs) :
    risesOf f (driverTrace o d is) =
      ((List.range is.length).filter fun n =>
        rises (f (driverRun o d (is.take n))) (f (driverRun o d (is.take (n + 1))))).map
          fun n => driverRun o d (is.take (n + 1)) := by
  induction is generalizing d with
  | nil => rfl
  | cons i is ih =>
    rw [risesOf_driverTrace_cons, ih, List.length_cons, List.range_succ_eq_map, List.filter_cons, List.filter_map]
    split <;> simp_all [Function.comp_def]

/-- Where the pin `f` is a function `p` of the number of edges, its rising edges are those of `p`. -/
theorem risesOf_driverTrace_of_pin {f : Driver → Bool} {p : Nat → Bool} {o : ShiftOrder} {d : Driver}
    {is : List PortInputs} (pin : ∀ n, n ≤ is.length → f (driverRun o d (is.take n)) = p n) :
    risesOf f (driverTrace o d is) = ((List.range is.length).filter fun n => rises (p n) (p (n + 1))).map
      fun n => driverRun o d (is.take (n + 1)) := by
  rw [risesOf_driverTrace]
  refine congrArg _ (List.filter_congr fun n hn => ?_)
  rw [List.mem_range] at hn
  rw [pin n (by omega), pin (n + 1) (by omega)]

/-! ## The serial pins of a level (R89) -/

/-- SRCLK is high in the even cycles 2 to 32. -/
def srclkAt (n : Nat) : Bool := decide (1 ≤ n ∧ n ≤ 32 ∧ n % 2 = 0)

/-- RCLK is high in cycle 33. -/
def rclkAt (n : Nat) : Bool := decide (n = 33)

theorem timelineRow_clocks (o : ShiftOrder) (sl : Slice) (lvl : BitVec 2) {n : Nat} (pos : 1 ≤ n) :
    (timelineRow o sl lvl n).pins.srclk = srclkAt n ∧ (timelineRow o sl lvl n).pins.rclk = rclkAt n := by
  unfold timelineRow
  split_ifs with shifting latching
  · have before : n ≠ 33 := by omega
    simp [srclkAt, rclkAt, darkPins, pos, shifting, before]
  · simp [srclkAt, rclkAt, darkPins, latching]
  · simp [srclkAt, rclkAt, darkPins, shifting, latching]

section level
variable {o : ShiftOrder} {d : Driver} {is : List PortInputs} {n : Nat}

theorem take_atCycle (hst : d.st = .blank) (noReset : NoReset is) (len : is.length = 34) (pos : 1 ≤ n) (le : n ≤ 34) :
    AtCycle o (blankSlice d) d.lvl n (driverRun o d (is.take n)) := by
  have taken : (is.take n).length = n := by simp [len, le]
  have run := driverRun_atCycle (o := o) hst (is := is.take n) (fun i hi => noReset i (List.mem_of_mem_take hi))
    (by omega) (by omega)
  rwa [taken] at run

theorem clocks_of_level (hp : PinsMatch o d) (hst : d.st = .blank) (noReset : NoReset is) (len : is.length = 34)
    (le : n ≤ 34) : (driverRun o d (is.take n)).srclk = srclkAt n ∧ (driverRun o d (is.take n)).rclk = rclkAt n := by
  rcases Nat.eq_zero_or_pos n with rfl | pos
  · obtain ⟨pins, -⟩ := hp
    rw [expectedPins, hst] at pins
    exact ⟨congrArg Pins.srclk pins, congrArg Pins.rclk pins⟩
  · obtain ⟨row, -⟩ := take_atCycle (o := o) hst noReset len pos le
    obtain ⟨srclk, rclk⟩ := timelineRow_clocks o (blankSlice d) d.lvl pos
    exact ⟨(congrArg (fun r => r.pins.srclk) row).trans srclk, (congrArg (fun r => r.pins.rclk) row).trans rclk⟩

/-- At the k-th rising edge of SRCLK, which leads to cycle 2k + 2, SER is bit k of the serial sequence. -/
theorem ser_of_level (hst : d.st = .blank) (noReset : NoReset is) (len : is.length = 34) {k : Nat} (hk : k < 16) :
    (driverRun o d (is.take (2 * k + 2))).ser = serialBit o (blankSlice d) k := by
  obtain ⟨row, -⟩ := take_atCycle (o := o) (n := 2 * k + 2) hst noReset len (by omega) (by omega)
  rw [timelineRow_phase1 hk] at row
  exact congrArg (fun r => r.pins.ser) row

end level

/-! ## The obligation -/

/-- Settles O52: the clock pins are functions of the cycle number, so the cycles in which they rise are counted there,
and SER in them is the bit of R190's row. -/
theorem serialFrameOfALevel : Obligations.SerialFrameOfALevel := by
  refine ⟨fun o d is hp hst noReset len => ?_, fun k _ => ⟨rfl, rfl⟩⟩
  have clocks {n : Nat} (le : n ≤ 34) := clocks_of_level hp hst noReset len le
  refine ⟨?_, ?_, ?_⟩
  · have cycles : (List.range 34).filter (fun n => rises (srclkAt n) (srclkAt (n + 1))) =
        (List.range 16).map (2 * · + 1) := by decide
    rw [risesOf_driverTrace_of_pin fun n le => (clocks (le.trans_eq len)).1, len, cycles, List.map_map, List.map_map]
    exact List.map_congr_left fun k hk => ser_of_level hst noReset len (List.mem_range.mp hk)
  · have cycles : (List.range 34).filter (fun n => rises (rclkAt n) (rclkAt (n + 1))) = [32] := by decide
    rw [risesOf_driverTrace_of_pin fun n le => (clocks (le.trans_eq len)).2, len, cycles]
    rfl
  · have rest : (is.drop 32).length = 2 := by rw [List.length_drop, len]
    have later (n : Nat) (le : n ≤ (is.drop 32).length) :
        (driverRun o (driverRun o d (is.take 32)) ((is.drop 32).take n)).srclk = srclkAt (32 + n) := by
      rw [← driverRun_append, ← List.take_add]
      exact (clocks (by omega)).1
    have cycles : (List.range 2).filter (fun n => rises (srclkAt (32 + n)) (srclkAt (32 + (n + 1)))) = [] := by decide
    rw [risesOf_driverTrace_of_pin later, rest, cycles, List.map_nil]

end Sys2Proof.Proofs

/-! # Proofs: the Coordinate Codec (40_codec.md)

Every operation drives `opValue` (`exec_of_opValue`), and every mask is known bit by bit, so an equation of masks is an
equation of coordinates. A level mask is by definition the slice mask of axis z, so R106 and R107 are cases of R114 and
R122. -/

namespace Sys2Proof.Proofs

open Sys2Proof.Machine Sys2Proof.Safety Sys2Proof.Laws

/-! ## The words of R71 with their operands as fields -/

section words
variable (op : BitVec 4) (ax : BitVec 2)

theorem opWord_argCoords (x y z : BitVec 2) :
    opWord op ax (argCoords x.toNat y.toNat z.toNat) = op ++ ax ++ x ++ y ++ z := by
  simp only [argCoords, BitVec.ofNat_toNat, BitVec.setWidth_eq]
  show op ++ ax ++ (x ++ y ++ z) = op ++ ax ++ x ++ y ++ z
  rw [BitVec.append_assoc (x₁ := op ++ ax ++ x), BitVec.append_assoc (x₁ := op ++ ax), BitVec.append_assoc (x₁ := x)]
  rfl

theorem opWord_argTwo (l : BitVec 2) : opWord op ax (argTwo l.toNat) = op ++ ax ++ 0b0000#4 ++ l := by
  simp only [argTwo, BitVec.ofNat_toNat, BitVec.setWidth_eq]
  show op ++ ax ++ (0b0000#4 ++ l) = op ++ ax ++ 0b0000#4 ++ l
  rw [BitVec.append_assoc (x₁ := op ++ ax)]
  rfl

theorem opWord_argFour (c : BitVec 4) : opWord op ax (argFour c.toNat) = op ++ ax ++ 0b00#2 ++ c := by
  simp only [argFour, BitVec.ofNat_toNat, BitVec.setWidth_eq]
  show op ++ ax ++ (0b00#2 ++ c) = op ++ ax ++ 0b00#2 ++ c
  rw [BitVec.append_assoc (x₁ := op ++ ax)]
  rfl

end words

/-- The four values of a two-bit field fit a coordinate. -/
theorem coordOk_toNat (v : BitVec 2) : coordOk v.toNat = true := decide_eq_true v.isLt

/-! ## What an operation drives (R100) -/

/-- An instruction whose value is `v` completes with `v` on `r_out` and changes nothing else. -/
theorem exec_of_opValue {i : Instr} {s : State} {v : LedState} (h : opValue i s.ports.sIn = v) :
    exec i s = .next (withResult s v) := by
  rw [exec_eq_driveResult, h]
  rfl

theorem rOut_of_exec {i : Instr} {s t : State} (h : exec i s = .next t) : t.rOut = opValue i s.ports.sIn := by
  rw [exec_next_eq h, driveResult_rOut]

/-! ## The values for operands in range -/

theorem bitIndex_of_lt {x y z : Nat} (hx : x < 4) (hy : y < 4) (hz : z < 4) : bitIndex x y z = 16 * x + 4 * y + z := by
  rw [bitIndex, coord_of_lt hx, coord_of_lt hy, coord_of_lt hz]

theorem levelMask_of_lt {l : Nat} (hl : l < 4) : levelMask l = 0x1111_1111_1111_1111#64 <<< l := by
  rw [levelMask, coord_of_lt hl]

theorem columnMask_of_lt {c : Nat} (hc : c < 16) : columnMask c = 0xF#64 <<< (4 * c) := by
  rw [columnMask, column_of_lt hc]

/-- The closed forms of R114. -/
theorem axisSliceMask_of_lt {k : Nat} (hk : k < 4) :
    axisSliceMask .x k = 0xFFFF#64 <<< (16 * k) ∧ axisSliceMask .y k = 0x000F_000F_000F_000F#64 <<< (4 * k) ∧
      axisSliceMask .z k = 0x1111_1111_1111_1111#64 <<< k := by
  simp only [axisSliceMask, coord_of_lt hk, and_self]

/-! ## The coordinates of the LED of column c at level z (R21) -/

section columns
variable {c z : Nat} (hz : z < 4)
include hz

theorem indexX_of_column (hc : c < 16) : indexX (4 * c + z) = c / 4 := by
  unfold indexX
  omega

theorem indexY_of_column : indexY (4 * c + z) = c % 4 := by
  unfold indexY
  omega

theorem indexZ_of_column : indexZ (4 * c + z) = z := by
  unfold indexZ
  omega

end columns

/-- An LED is the one of its column at its level. -/
theorem eq_of_column_level {n : Nat} (h : n < 64) : n = 4 * indexColumn n + indexZ n := by
  unfold indexColumn indexZ
  omega

theorem indexColumn_lt (n : Nat) : indexColumn n < 16 := Nat.mod_lt _ (by decide)

/-! ## Masks as sets of LEDs -/

theorem getLsbD_levelMask (l : Nat) {n : Nat} (h : n < 64) : (levelMask l).getLsbD n = decide (indexZ n = coord l) :=
  getLsbD_axisSliceMask .z l h

theorem litCount_of_getLsbD {v : LedState} {p : Nat → Bool} (h : ∀ n, n < 64 → v.getLsbD n = p n) :
    litCount v = ((List.range 64).filter p).length := by
  rw [litCount, List.filter_congr fun n hn => h n (List.mem_range.mp hn)]

/-- A plane has 16 LEDs (R106, R114). -/
theorem litCount_axisSliceMask (a : Axis) (k : Nat) : litCount (axisSliceMask a k) = 16 := by
  have planes (a : Axis) : ∀ q : Fin 4, ((List.range 64).filter fun n => decide (axisCoord a n = q.val)).length = 16 := by
    cases a <;> decide
  rw [litCount_of_getLsbD fun n h => getLsbD_axisSliceMask a k h]
  exact planes a ⟨coord k, coord_lt k⟩

/-- A pixel mask has one LED (R104). -/
theorem litCount_pixMask (x y z : Nat) : litCount (pixMask x y z) = 1 := by
  have bit (n : Nat) (h : n < 64) : (pixMask x y z).getLsbD n = (n == bitIndex x y z) := by
    rw [getLsbD_pixMask x y z h, beq_eq_decide, decide_eq_decide, eq_bitIndex_iff x y z h]
  rw [litCount_of_getLsbD bit, ← List.countP_eq_length_filter]
  exact List.count_eq_one_of_mem List.nodup_range (List.mem_range.mpr (bitIndex_lt x y z))

/-- Two planes across one axis share no LED (R122). -/
theorem axisSliceMask_disjoint (a : Axis) {i j : Nat} (hi : i < 4) (hj : j < 4) (ne : i ≠ j) :
    axisSliceMask a i &&& axisSliceMask a j = 0 := by
  refine BitVec.eq_of_getLsbD_eq fun n h => ?_
  rw [BitVec.getLsbD_and, getLsbD_axisSliceMask a i h, getLsbD_axisSliceMask a j h, coord_of_lt hi, coord_of_lt hj]
  have notBoth : ¬ (axisCoord a n = i ∧ axisCoord a n = j) := fun ⟨eqi, eqj⟩ => ne (eqi.symm.trans eqj)
  simpa using notBoth

/-- The four planes across one axis cover the cube (R122). -/
theorem axisSliceMask_cover (a : Axis) :
    axisSliceMask a 0 ||| axisSliceMask a 1 ||| axisSliceMask a 2 ||| axisSliceMask a 3 = ledStateMask := by
  refine BitVec.eq_of_getLsbD_eq fun n h => ?_
  have lt := axisCoord_lt a n
  have values : axisCoord a n = 0 ∨ axisCoord a n = 1 ∨ axisCoord a n = 2 ∨ axisCoord a n = 3 := by omega
  simpa [getLsbD_axisSliceMask a _ h, getLsbD_ledStateMask h, or_assoc] using values

/-- Two columns share no LED (R109). -/
theorem columnMask_disjoint {i j : Nat} (hi : i < 16) (hj : j < 16) (ne : i ≠ j) :
    columnMask i &&& columnMask j = 0 := by
  refine BitVec.eq_of_getLsbD_eq fun n h => ?_
  rw [BitVec.getLsbD_and, getLsbD_columnMask i h, getLsbD_columnMask j h, column_of_lt hi, column_of_lt hj]
  have notBoth : ¬ (indexColumn n = i ∧ indexColumn n = j) := fun ⟨eqi, eqj⟩ => ne (eqi.symm.trans eqj)
  simpa using notBoth

theorem getLsbD_foldr_or (vs : List LedState) (n : Nat) :
    (vs.foldr (· ||| ·) 0).getLsbD n = vs.any (·.getLsbD n) := by
  induction vs with
  | nil => simp
  | cons v vs ih => rw [List.foldr_cons, BitVec.getLsbD_or, ih, List.any_cons]

/-- The sixteen columns cover the cube (R109): an LED lies in its own. -/
theorem columnMask_cover : ((List.range 16).map columnMask).foldr (· ||| ·) 0 = ledStateMask := by
  refine BitVec.eq_of_getLsbD_eq fun n h => ?_
  have own : (columnMask (indexColumn n)).getLsbD n = true := by
    simp [getLsbD_columnMask _ h, column_of_lt (indexColumn_lt n)]
  rw [getLsbD_foldr_or, getLsbD_ledStateMask h, List.any_map, List.any_eq_true]
  exact ⟨indexColumn n, List.mem_range.mpr (indexColumn_lt n), own⟩

/-- A level and a column meet in one LED (R109). -/
theorem levelMask_and_columnMask {c l : Nat} (hc : c < 16) (hl : l < 4) :
    levelMask l &&& columnMask c = BitVec.twoPow 64 (4 * c + l) := by
  refine BitVec.eq_of_getLsbD_eq fun n h => ?_
  rw [BitVec.getLsbD_and, getLsbD_levelMask l h, getLsbD_columnMask c h, coord_of_lt hl, column_of_lt hc,
    BitVec.getLsbD_twoPow, Bool.eq_iff_iff]
  have meet : indexZ n = l ∧ indexColumn n = c ↔ 4 * c + l = n := by
    unfold indexZ indexColumn
    omega
  simpa [show 4 * c + l < 64 by omega] using meet

/-! ## Level slices (R112, R124) -/

theorem levelSlice_bit (s : LedState) {l c : Nat} (hl : l < 4) (hc : c < 16) :
    (levelSlice s l).getLsbD c = s.getLsbD (4 * c + l) := by
  rw [getLsbD_levelSlice, coord_of_lt hl, decide_eq_true hc, Bool.true_and]

theorem levelSlice_zero (l : Nat) : levelSlice 0 l = 0 :=
  BitVec.eq_of_getLsbD_eq fun c _ => by simp [getLsbD_levelSlice]

theorem levelSlice_ledStateMask (l : Nat) : levelSlice ledStateMask l = 0xFFFF := by
  have full : (0xFFFF : Slice) = BitVec.allOnes 16 := by decide
  refine BitVec.eq_of_getLsbD_eq fun c hc => ?_
  have hl := coord_lt l
  rw [getLsbD_levelSlice, getLsbD_ledStateMask (by omega), full, BitVec.getLsbD_allOnes, Bool.and_true]

/-- Masking a word with a single LED leaves something exactly when the LED is lit. -/
theorem and_twoPow_ne_zero_iff (s : LedState) {n : Nat} (h : n < 64) :
    s &&& BitVec.twoPow 64 n ≠ 0 ↔ s.getLsbD n = true := by
  have power : BitVec.twoPow 64 n ≠ 0#64 := fun zero => by
    simpa [BitVec.getLsbD_twoPow, h] using congrArg (·.getLsbD n) zero
  rw [BitVec.and_twoPow]
  cases s.getLsbD n <;> simp [power]

/-! ## The parametric derivation (R101) -/

theorem testBit_orBits (is : List Nat) (n : Nat) : (orBits is).testBit n = decide (n ∈ is) := by
  induction is with
  | nil => simp [orBits]
  | cons i is ih =>
    have cons : orBits (i :: is) = 2 ^ i ||| orBits is := by rw [orBits, List.foldr_cons, Nat.one_shiftLeft, ← orBits]
    rw [cons, Nat.testBit_or, ih, Nat.testBit_two_pow]
    simp [eq_comm]

theorem mem_coordPairs {L a b : Nat} : (a, b) ∈ coordPairs L ↔ a < L ∧ b < L := by
  simp [coordPairs]

theorem genBitIndex_eq {x y z n : Nat} (hy : y < 4) (hz : z < 4) (h : n < 64) :
    genBitIndex 4 x y z = n ↔ indexX n = x ∧ indexY n = y ∧ indexZ n = z := by
  unfold genBitIndex indexX indexY indexZ
  omega

/-- The general form at L = 4 has the LEDs of the plane. -/
theorem testBit_genAxisSliceMask (a : Axis) {k n : Nat} (hk : k < 4) (h : n < 64) :
    (genAxisSliceMask 4 a k).testBit n = decide (axisCoord a n = k) := by
  have hx := indexX_lt n
  have hy := indexY_lt n
  have hz := indexZ_lt n
  rw [genAxisSliceMask, testBit_orBits, decide_eq_decide, List.mem_map]
  constructor
  · rintro ⟨⟨b, c⟩, hp, e⟩
    obtain ⟨hb, hc⟩ := mem_coordPairs.mp hp
    cases a
    case x => exact ((genBitIndex_eq hb hc h).mp e).1
    case y => exact ((genBitIndex_eq hk hc h).mp e).2.1
    case z => exact ((genBitIndex_eq hc hk h).mp e).2.2
  · rintro rfl
    have e := (genBitIndex_eq hy hz h).mpr ⟨rfl, rfl, rfl⟩
    cases a
    case x => exact ⟨(indexY n, indexZ n), mem_coordPairs.mpr ⟨hy, hz⟩, e⟩
    case y => exact ⟨(indexX n, indexZ n), mem_coordPairs.mpr ⟨hx, hz⟩, e⟩
    case z => exact ⟨(indexX n, indexY n), mem_coordPairs.mpr ⟨hx, hy⟩, e⟩

theorem axisSliceMask_eq_gen (a : Axis) {k : Nat} (hk : k < 4) :
    axisSliceMask a k = BitVec.ofNat 64 (genAxisSliceMask 4 a k) := by
  refine BitVec.eq_of_getLsbD_eq fun n h => ?_
  rw [getLsbD_axisSliceMask a k h, coord_of_lt hk, BitVec.getLsbD_ofNat, testBit_genAxisSliceMask a hk h,
    decide_eq_true h, Bool.true_and]

theorem columnMask_eq_gen {c : Nat} (hc : c < 16) : columnMask c = BitVec.ofNat 64 (genColumnMask 4 c) := by
  refine BitVec.eq_of_toNat_eq ?_
  rw [columnMask_of_lt hc, BitVec.toNat_shiftLeft, BitVec.toNat_ofNat, BitVec.toNat_ofNat]
  rfl

/-! ## The obligations -/

/-- Settles O19: `step_frame` gives the ports and `step_outputs` the pure function. -/
theorem stepOutputsAreThePureFunction : Obligations.StepOutputsAreThePureFunction := by
  intro s t hs
  obtain ⟨_, hports, _⟩ := step_frame hs
  rw [hports]
  exact ⟨rfl, step_outputs hs⟩

/-- Settles O28: a level and a column meet in one LED, and masking with one LED tests it. -/
theorem levelSliceReadsTheColumns : Obligations.LevelSliceReadsTheColumns := by
  intro s l c hl hc
  refine ⟨levelSlice_bit s hl hc, ?_⟩
  rw [levelSlice_bit s hl hc, BitVec.and_assoc, levelMask_and_columnMask hc hl, Bool.eq_iff_iff, decide_eq_true_iff,
    and_twoPow_ne_zero_iff s (by omega)]

/-- Settles O7: the legal case of `step`. -/
theorem stepRunsThePresentedOperation : Obligations.StepRunsThePresentedOperation :=
  fun _ _ _ stable hd he => step_legal stable hd he

/-- Settles O9: the word is the encoding of its fields, and the index of any operands is below 64. -/
theorem bitindexGivesTheIndex : Obligations.BitindexGivesTheIndex := by
  refine ⟨fun x y z => ?_, fun x y z s hx hy hz => ⟨?_, by omega⟩, fun x y z s t h => ?_, fun s => ⟨?_, ?_⟩, by decide,
    fun s => ?_⟩
  · rw [← opWord_argCoords]
    exact decode_eq_legal_iff.mpr ⟨rfl, by simp [Instr.wf, coordOk_toNat]⟩
  · exact exec_of_opValue (congrArg (BitVec.ofNat 64) (bitIndex_of_lt hx hy hz))
  · have low := bitIndex_lt x y z
    rw [rOut_of_exec h, opValue]
    refine BitVec.eq_of_toNat_eq ?_
    rw [BitVec.extractLsb'_toNat, BitVec.toNat_ofNat, Nat.shiftRight_eq_div_pow]
    have high : bitIndex x y z % 2 ^ 64 / 2 ^ 6 = 0 := by omega
    rw [high]
    rfl
  all_goals exact exec_of_opValue rfl

/-- Settles O10: the one LED is the one of the index. -/
theorem pixmaskGivesOneBit : Obligations.PixmaskGivesOneBit := by
  refine ⟨fun x y z => ?_, fun x y z s hx hy hz => ?_, fun x y z s t h => ?_, fun s => ⟨?_, ?_⟩, by decide, fun s => ?_⟩
  · rw [← opWord_argCoords]
    exact decode_eq_legal_iff.mpr ⟨rfl, by simp [Instr.wf, coordOk_toNat]⟩
  · exact exec_of_opValue (congrArg (1#64 <<< ·) (bitIndex_of_lt hx hy hz))
  · rw [rOut_of_exec h]
    exact litCount_pixMask x y z
  all_goals exact exec_of_opValue rfl

/-- Settles O11: a level is a plane across axis z. -/
theorem levelmaskGivesTheLevel : Obligations.LevelmaskGivesTheLevel := by
  refine ⟨fun l => ?_, fun l s hl => exec_of_opValue (levelMask_of_lt hl), fun s => ?_,
    fun l s t hl h => ?_, by decide⟩
  · rw [← opWord_argTwo]
    exact decode_eq_legal_iff.mpr ⟨rfl, coordOk_toNat l⟩
  · exact ⟨exec_of_opValue rfl, exec_of_opValue rfl, exec_of_opValue rfl, exec_of_opValue rfl⟩
  · rw [rOut_of_exec h]
    refine ⟨litCount_axisSliceMask .z l, fun c m hc hm => ?_⟩
    rw [opValue, getLsbD_levelMask l (by omega), indexZ_of_column hm, coord_of_lt hl]

/-- Settles O12: a column is the LEDs with its `indexColumn`. -/
theorem columnmaskGivesTheNibble : Obligations.ColumnmaskGivesTheNibble := by
  refine ⟨fun c => ?_, fun c s hc => exec_of_opValue (columnMask_of_lt hc), by decide, fun x y z c hx hy hz hc => ?_,
    by decide, fun s => exec_of_opValue rfl⟩
  · rw [← opWord_argFour]
    exact decode_eq_legal_iff.mpr ⟨rfl, decide_eq_true c.isLt⟩
  · rw [getLsbD_columnMask c (by omega), column_of_lt hc, decide_eq_true_iff, indexColumn]
    omega

/-- Settles O13: the coordinates of an LED along x and y are the digits of its column. -/
theorem slicemaskGivesThePlane : Obligations.SlicemaskGivesThePlane := by
  refine ⟨fun k => ?_, fun k s hk => ?_, fun k c z hk hc hz => ⟨?_, ?_⟩, by decide, by decide, by decide, fun s => ?_⟩
  · simp only [← opWord_argTwo]
    have wf := coordOk_toNat k
    exact ⟨decode_eq_legal_iff.mpr ⟨rfl, wf⟩, decode_eq_legal_iff.mpr ⟨rfl, wf⟩, decode_eq_legal_iff.mpr ⟨rfl, wf⟩⟩
  · obtain ⟨hx, hy, hz⟩ := axisSliceMask_of_lt hk
    exact ⟨exec_of_opValue hx, exec_of_opValue hy, exec_of_opValue hz, rfl⟩
  · rw [getLsbD_axisSliceMask .x k (by omega), coord_of_lt hk, decide_eq_true_iff, axisCoord, indexX_of_column hz hc]
    omega
  · rw [getLsbD_axisSliceMask .y k (by omega), coord_of_lt hk, decide_eq_true_iff, axisCoord, indexY_of_column hz]
    omega
  · exact ⟨exec_of_opValue rfl, exec_of_opValue rfl, exec_of_opValue rfl⟩

/-- Settles O14: the slice's bits are those of `s_in` at the level, and the port's other wires are 0. -/
theorem lvlsliceExtractsTheLevel : Obligations.LvlsliceExtractsTheLevel := by
  refine ⟨fun l => ?_, fun l s hl => ⟨_, exec_of_opValue rfl, rfl, fun c hc => ?_, fun n hn => ?_⟩, fun l s h => ?_,
    fun l s h => ?_, fun s h => ?_⟩
  · rw [← opWord_argTwo]
    exact decode_eq_legal_iff.mpr ⟨rfl, coordOk_toNat l⟩
  · rw [opValue, getLsbD_sliceOnPort_levelSlice _ l (by omega), coord_of_lt hl, decide_eq_true hc, Bool.true_and]
  · rw [opValue, sliceOnPort, BitVec.getLsbD_setWidth, BitVec.getLsbD_of_ge _ n hn, Bool.and_false]
  · refine exec_of_opValue ?_
    rw [opValue, h, levelSlice_zero]
    rfl
  · refine exec_of_opValue ?_
    rw [opValue, h, ← ledStateMask, levelSlice_ledStateMask]
    rfl
  · refine exec_of_opValue ?_
    rw [opValue, h]
    decide

/-- Settles O15: the word has no operand, and the value is `ledStateMask`. -/
theorem statemaskGivesAllOnes : Obligations.StatemaskGivesAllOnes :=
  ⟨by decide, by decide, fun _ => exec_of_opValue rfl⟩

/-- Settles O24: slice masks LED by LED, level masks as those of axis z, column masks by the shift. -/
theorem masksAreTheParametricDerivation : Obligations.MasksAreTheParametricDerivation :=
  ⟨by decide, fun _ hl => axisSliceMask_eq_gen .z hl, fun _ hc => columnMask_eq_gen hc,
    fun a _ hk => axisSliceMask_eq_gen a hk, fun _ _ => rfl⟩

/-- Settles O25: levels are planes across axis z, and an LED lies in its own column. -/
theorem levelAndColumnMasksPartition : Obligations.LevelAndColumnMasksPartition :=
  ⟨axisSliceMask_cover .z, fun _ _ hi hj ne => axisSliceMask_disjoint .z hi hj ne, columnMask_cover,
    fun _ _ hi hj ne => columnMask_disjoint hi hj ne, fun _ _ hc hl => levelMask_and_columnMask hc hl⟩

/-- Settles O26: an LED has one coordinate along an axis, 0 to 3. -/
theorem axisSliceMasksPartition : Obligations.AxisSliceMasksPartition := fun a =>
  ⟨axisSliceMask_cover a, fun _ _ hi hj ne => axisSliceMask_disjoint a hi hj ne⟩

/-- Settles O27: the law of the slice masks with the coordinate in range, and the table of their values. -/
theorem axisSliceMaskSelectsThePlane : Obligations.AxisSliceMaskSelectsThePlane := by
  refine ⟨fun a k n hk hn => ?_, fun a k _ => litCount_axisSliceMask a k, fun k hk => axisSliceMask_of_lt hk, by decide,
    by decide, by decide⟩
  rw [getLsbD_axisSliceMask a k hn, coord_of_lt hk]

end Sys2Proof.Proofs

/-! # Proofs: the Geometric Transform Engine (41_transform.md)

One stride moves the coordinate along its axis by one, modulo 4, and keeps the two other coordinates where it does not
cross a plane's edge (`axisCoord_stride_add`, `axisCoord_stride_add_of_ne`). A transformed word is known LED by LED
(`shiftAxis_bit`, `unshiftAxis_bit`), so every law below is one of coordinates. -/

namespace Sys2Proof.Proofs

open Sys2Proof.Machine Sys2Proof.Safety Sys2Proof.Laws

/-! ## One stride along an axis (R74, R140) -/

section strides
variable {a b : Axis} {n : Nat}

theorem axisCoord_eq_div (a : Axis) (n : Nat) : axisCoord a n = n / stride a % 4 := by
  cases a
  case x => rfl
  case y => rfl
  case z => rw [stride, Nat.div_one, axisCoord, indexZ]

theorem axisCoord_stride_add (a : Axis) (n : Nat) : axisCoord a (stride a + n) = (axisCoord a n + 1) % 4 := by
  rw [axisCoord_eq_div, axisCoord_eq_div, Nat.add_div_left n (stride_pos a), Nat.mod_add_mod]

/-- Off the last plane of its axis, a stride carries into no other coordinate. -/
theorem axisCoord_stride_add_of_ne (ne : a ≠ b) (inside : axisCoord a n ≠ 3) :
    axisCoord b (stride a + n) = axisCoord b n := by
  cases a <;> cases b <;> simp only [ne_eq, not_true_eq_false, axisCoord, stride, indexX, indexY, indexZ] at * <;> omega

theorem stride_le (inside : axisCoord a n ≠ 0) : stride a ≤ n := by
  by_contra below
  exact inside (by rw [axisCoord_eq_div, Nat.div_eq_of_lt (Nat.not_le.mp below)])

theorem stride_add_lt (h : n < 64) (inside : axisCoord a n ≠ 3) : stride a + n < 64 := by
  cases a <;> simp only [axisCoord, stride, indexX, indexY, indexZ] at * <;> omega

theorem axisCoord_sub_stride (le : stride a ≤ n) : axisCoord a n = (axisCoord a (n - stride a) + 1) % 4 := by
  rw [← axisCoord_stride_add, Nat.add_sub_cancel' le]

/-- Off the first plane of its axis, a stride back borrows from no other coordinate. -/
theorem axisCoord_sub_stride_of_ne (ne : a ≠ b) (inside : axisCoord a n ≠ 0) :
    axisCoord b (n - stride a) = axisCoord b n := by
  have back := axisCoord_sub_stride (stride_le inside)
  rw [← axisCoord_stride_add_of_ne ne (n := n - stride a) (by omega), Nat.add_sub_cancel' (stride_le inside)]

end strides

/-! ## A transformed word, LED by LED (R140, R141) -/

theorem shiftAxis_bit (s : LedState) (a : Axis) {n : Nat} (h : n < 64) :
    (shiftAxis s a).getLsbD n = true ↔ axisCoord a n ≠ 0 ∧ s.getLsbD (n - stride a) = true := by
  have le (inside : axisCoord a n ≠ 0) : stride a ≤ n := stride_le inside
  simp only [getLsbD_shiftAxis s a h, Bool.and_eq_true, Bool.not_eq_true', decide_eq_false_iff_not, Nat.not_lt]
  tauto

theorem unshiftAxis_bit (s : LedState) (a : Axis) {n : Nat} (h : n < 64) :
    (unshiftAxis s a).getLsbD n = true ↔ axisCoord a n ≠ 3 ∧ s.getLsbD (stride a + n) = true := by
  rw [getLsbD_unshiftAxis s a h, Bool.and_eq_true, Bool.not_eq_true', decide_eq_false_iff_not, and_comm]

theorem and_not_axisSliceMask_bit (s : LedState) (a : Axis) {k n : Nat} (hk : k < 4) (h : n < 64) :
    (s &&& ~~~ axisSliceMask a k).getLsbD n = true ↔ s.getLsbD n = true ∧ axisCoord a n ≠ k := by
  rw [BitVec.getLsbD_and, BitVec.getLsbD_not, getLsbD_axisSliceMask a k h, coord_of_lt hk, decide_eq_true h]
  simp

/-- Two state words with the same lit LEDs are equal. -/
theorem ledState_ext {v w : LedState} (h : ∀ n, n < 64 → (v.getLsbD n = true ↔ w.getLsbD n = true)) : v = w :=
  BitVec.eq_of_getLsbD_eq fun n hn => Bool.eq_iff_iff.mpr (h n hn)

/-- `& LED_STATE_MASK` drops nothing of a 64-bit word. -/
theorem shiftAxis_eq_and (s : LedState) (a : Axis) : shiftAxis s a = (s <<< stride a) &&& ~~~ axisSliceMask a 0 := by
  rw [shiftAxis, show ledStateMask = BitVec.allOnes 64 from rfl, BitVec.and_allOnes]

/-! ## The equivalent word forms (R148) -/

theorem shiftAxis_eq_drop_shift (s : LedState) (a : Axis) :
    shiftAxis s a = (s &&& ~~~ axisSliceMask a 3) <<< stride a := by
  refine ledState_ext fun n h => ?_
  have moved : stride a ≤ n → axisCoord a n = (axisCoord a (n - stride a) + 1) % 4 := axisCoord_sub_stride
  have le : axisCoord a n ≠ 0 → stride a ≤ n := stride_le
  have lt := axisCoord_lt a (n - stride a)
  have inside : axisCoord a n ≠ 0 ↔ stride a ≤ n ∧ axisCoord a (n - stride a) ≠ 3 := by omega
  rw [shiftAxis_bit s a h, inside, BitVec.getLsbD_shiftLeft, Bool.and_eq_true,
    and_not_axisSliceMask_bit s a (by decide) (by omega)]
  simp only [decide_eq_true h, Bool.true_and, Bool.not_eq_true', decide_eq_false_iff_not, Nat.not_lt]
  tauto

theorem unshiftAxis_eq_drop_shift (s : LedState) (a : Axis) :
    unshiftAxis s a = (s &&& ~~~ axisSliceMask a 0) >>> stride a := by
  refine ledState_ext fun n h => ?_
  have lt := axisCoord_lt a n
  have inside : axisCoord a n ≠ 3 ↔ axisCoord a (stride a + n) ≠ 0 := by
    rw [axisCoord_stride_add]
    omega
  rw [unshiftAxis_bit s a h, BitVec.getLsbD_ushiftRight, inside]
  by_cases high : stride a + n < 64
  · rw [and_not_axisSliceMask_bit s a (by decide) high, and_comm]
  · simp [BitVec.getLsbD_of_ge _ _ (Nat.not_lt.mp high)]

/-! ## Round trips on one axis (R149) -/

theorem unshiftAxis_shiftAxis (s : LedState) (a : Axis) :
    unshiftAxis (shiftAxis s a) a = s &&& ~~~ axisSliceMask a 3 := by
  refine ledState_ext fun n h => ?_
  rw [unshiftAxis_bit _ a h, and_not_axisSliceMask_bit s a (by decide) h, and_comm]
  refine and_congr_left fun inside => ?_
  have lt := axisCoord_lt a n
  rw [shiftAxis_bit s a (stride_add_lt h inside), Nat.add_sub_cancel_left, axisCoord_stride_add]
  exact and_iff_right (by omega)

theorem shiftAxis_unshiftAxis (s : LedState) (a : Axis) :
    shiftAxis (unshiftAxis s a) a = s &&& ~~~ axisSliceMask a 0 := by
  refine ledState_ext fun n h => ?_
  rw [shiftAxis_bit _ a h, and_not_axisSliceMask_bit s a (by decide) h, and_comm]
  refine and_congr_left fun inside => ?_
  have moved := axisCoord_sub_stride (stride_le inside)
  rw [unshiftAxis_bit s a (by omega), Nat.add_sub_cancel' (stride_le inside)]
  exact and_iff_right (by omega)

/-! ## Distinct axes commute (R151) -/

section commute
variable (s : LedState) {a b : Axis} (ne : a ≠ b)
include ne

theorem shiftAxis_shiftAxis_bit {n : Nat} (h : n < 64) : (shiftAxis (shiftAxis s a) b).getLsbD n = true ↔
    axisCoord b n ≠ 0 ∧ axisCoord a n ≠ 0 ∧ s.getLsbD (n - stride b - stride a) = true := by
  rw [shiftAxis_bit _ b h]
  refine and_congr_right fun inside => ?_
  rw [shiftAxis_bit s a (by omega), axisCoord_sub_stride_of_ne ne.symm inside]

theorem unshiftAxis_unshiftAxis_bit {n : Nat} (h : n < 64) : (unshiftAxis (unshiftAxis s a) b).getLsbD n = true ↔
    axisCoord b n ≠ 3 ∧ axisCoord a n ≠ 3 ∧ s.getLsbD (stride a + (stride b + n)) = true := by
  rw [unshiftAxis_bit _ b h]
  refine and_congr_right fun inside => ?_
  rw [unshiftAxis_bit s a (stride_add_lt h inside), axisCoord_stride_add_of_ne ne.symm inside]

theorem shiftAxis_comm : shiftAxis (shiftAxis s a) b = shiftAxis (shiftAxis s b) a :=
  ledState_ext fun n h => by
    rw [shiftAxis_shiftAxis_bit s ne h, shiftAxis_shiftAxis_bit s ne.symm h, and_left_comm, Nat.sub_right_comm]

theorem unshiftAxis_comm : unshiftAxis (unshiftAxis s a) b = unshiftAxis (unshiftAxis s b) a :=
  ledState_ext fun n h => by
    rw [unshiftAxis_unshiftAxis_bit s ne h, unshiftAxis_unshiftAxis_bit s ne.symm h, and_left_comm, Nat.add_left_comm]

theorem shiftAxis_unshiftAxis_comm : shiftAxis (unshiftAxis s a) b = unshiftAxis (shiftAxis s b) a := by
  refine ledState_ext fun n h => ?_
  have down : (shiftAxis (unshiftAxis s a) b).getLsbD n = true ↔
      axisCoord b n ≠ 0 ∧ axisCoord a n ≠ 3 ∧ s.getLsbD (stride a + n - stride b) = true := by
    rw [shiftAxis_bit _ b h]
    refine and_congr_right fun inside => ?_
    rw [unshiftAxis_bit s a (by omega), axisCoord_sub_stride_of_ne ne.symm inside, Nat.add_sub_assoc (stride_le inside)]
  have up : (unshiftAxis (shiftAxis s b) a).getLsbD n = true ↔
      axisCoord a n ≠ 3 ∧ axisCoord b n ≠ 0 ∧ s.getLsbD (stride a + n - stride b) = true := by
    rw [unshiftAxis_bit _ a h]
    refine and_congr_right fun inside => ?_
    rw [shiftAxis_bit s b (stride_add_lt h inside), axisCoord_stride_add_of_ne ne inside]
  rw [down, up, and_left_comm]

end commute

/-! ## Four in a row give 0 (R152) -/

/-- Every lit LED has coordinate k or more along the axis: k shifts have cleared the planes below. -/
def LitFrom (a : Axis) (k : Nat) (s : LedState) : Prop := ∀ n, n < 64 → s.getLsbD n = true → k ≤ axisCoord a n

/-- Every lit LED has a coordinate below 4 - k along the axis: k unshifts have cleared the planes above. -/
def LitUpTo (a : Axis) (k : Nat) (s : LedState) : Prop := ∀ n, n < 64 → s.getLsbD n = true → axisCoord a n + k < 4

section planes
variable {s : LedState} {a : Axis} {k : Nat}

theorem litFrom_zero (a : Axis) (s : LedState) : LitFrom a 0 s := fun _ _ _ => Nat.zero_le _

theorem litUpTo_zero (a : Axis) (s : LedState) : LitUpTo a 0 s := fun n _ _ => axisCoord_lt a n

theorem litFrom_shiftAxis (lit : LitFrom a k s) : LitFrom a (k + 1) (shiftAxis s a) := fun n h bit => by
  obtain ⟨inside, source⟩ := (shiftAxis_bit s a h).mp bit
  have moved := axisCoord_sub_stride (stride_le inside)
  have low := lit _ (by omega) source
  have lt := axisCoord_lt a (n - stride a)
  omega

theorem litUpTo_unshiftAxis (lit : LitUpTo a k s) : LitUpTo a (k + 1) (unshiftAxis s a) := fun n h bit => by
  obtain ⟨inside, source⟩ := (unshiftAxis_bit s a h).mp bit
  have high := lit _ (stride_add_lt h inside) source
  have lt := axisCoord_lt a n
  rw [axisCoord_stride_add] at high
  omega

/-- A word with no lit LED is 0. -/
theorem eq_zero_of_dark (dark : ∀ n, n < 64 → ¬ s.getLsbD n = true) : s = 0 :=
  ledState_ext fun n h => by simp [dark n h]

theorem eq_zero_of_litFrom (lit : LitFrom a 4 s) : s = 0 :=
  eq_zero_of_dark fun n h bit => absurd (lit n h bit) (Nat.not_le.mpr (axisCoord_lt a n))

theorem eq_zero_of_litUpTo (lit : LitUpTo a 4 s) : s = 0 :=
  eq_zero_of_dark fun n h bit => absurd (lit n h bit) (by omega)

end planes

/-! ## No transform adds a lit LED (R152) -/

theorem litCount_eq_card (s : LedState) : litCount s = ((Finset.range 64).filter (s.getLsbD · = true)).card := by
  simp [litCount, Finset.card_def, Finset.filter_val, Finset.range_val, Multiset.range]

/-- Where each lit LED of `v` has a source of its own among those of `s`, `v` has no more of them. -/
theorem litCount_le_of_source {v s : LedState} (source : Nat → Nat)
    (lit : ∀ n, n < 64 → v.getLsbD n = true → s.getLsbD (source n) = true)
    (own : ∀ m n, m < 64 → n < 64 → v.getLsbD m = true → v.getLsbD n = true → source m = source n → m = n) :
    litCount v ≤ litCount s := by
  rw [litCount_eq_card, litCount_eq_card]
  refine Finset.card_le_card_of_injOn source (fun n hn => ?_) fun m hm n hn => ?_
  · obtain ⟨h, bit⟩ := Finset.mem_filter.mp hn
    have lit := lit n (Finset.mem_range.mp h) bit
    exact Finset.mem_filter.mpr ⟨Finset.mem_range.mpr (BitVec.lt_of_getLsbD lit), lit⟩
  · obtain ⟨hm, bitm⟩ := Finset.mem_filter.mp hm
    obtain ⟨hn, bitn⟩ := Finset.mem_filter.mp hn
    exact own m n (Finset.mem_range.mp hm) (Finset.mem_range.mp hn) bitm bitn

theorem litCount_shiftAxis_le (s : LedState) (a : Axis) : litCount (shiftAxis s a) ≤ litCount s := by
  refine litCount_le_of_source (· - stride a) (fun n h bit => ((shiftAxis_bit s a h).mp bit).2)
    fun m n hm hn bitm bitn same => ?_
  have lem := stride_le ((shiftAxis_bit s a hm).mp bitm).1
  have len := stride_le ((shiftAxis_bit s a hn).mp bitn).1
  omega

theorem litCount_unshiftAxis_le (s : LedState) (a : Axis) : litCount (unshiftAxis s a) ≤ litCount s :=
  litCount_le_of_source (stride a + ·) (fun _ h bit => ((unshiftAxis_bit s a h).mp bit).2)
    fun _ _ _ _ _ _ same => Nat.add_left_cancel same

/-! ## The obligations -/

/-- An instruction's value on a known operand. -/
theorem exec_of_sIn {i : Instr} {s : State} {w v : LedState} (h : s.ports.sIn = w) (value : opValue i w = v) :
    exec i s = .next (withResult s v) :=
  exec_of_opValue (h ▸ value)

/-- Settles O29: the per-LED form at the coordinates of the LED's index, and the two word forms. -/
theorem transformsMoveEachLed : Obligations.TransformsMoveEachLed := by
  refine ⟨fun s a x y z hx hy hz => ?_, fun s a => ⟨shiftAxis_eq_drop_shift s a, unshiftAxis_eq_drop_shift s a⟩⟩
  have lt := bitIndex_lt x y z
  rw [← bitIndex_of_lt hx hy hz, getLsbD_shiftAxis_led s a lt, getLsbD_unshiftAxis_led s a lt, indexX_bitIndex,
    indexY_bitIndex, indexZ_bitIndex, coord_of_lt hx, coord_of_lt hy, coord_of_lt hz]
  exact ⟨rfl, rfl⟩

/-- Settles O30: the round trips as equations; with every LED lit, both lose a plane. -/
theorem transformRoundTrips : Obligations.TransformRoundTrips :=
  ⟨fun s a => ⟨unshiftAxis_shiftAxis s a, shiftAxis_unshiftAxis s a⟩,
    fun a => ⟨⟨ledStateMask, by cases a <;> decide⟩, ⟨ledStateMask, by cases a <;> decide⟩⟩⟩

/-- Settles O31: on one axis, with every LED lit, the two orders lose different planes. -/
theorem transformsOnDistinctAxesCommute : Obligations.TransformsOnDistinctAxesCommute :=
  ⟨fun s _ _ ne => ⟨shiftAxis_comm s ne, unshiftAxis_comm s ne, shiftAxis_unshiftAxis_comm s ne⟩,
    fun a => ⟨ledStateMask, by cases a <;> decide⟩⟩

/-- Settles O32: each transform clears one more plane, and each lit LED has its own source. -/
theorem fourTransformsGiveZero : Obligations.FourTransformsGiveZero := by
  refine fun s a => ⟨eq_zero_of_litFrom (a := a) ?_, eq_zero_of_litUpTo (a := a) ?_, litCount_shiftAxis_le s a,
    litCount_unshiftAxis_le s a, by cases a <;> decide, by cases a <;> decide⟩
  · exact litFrom_shiftAxis (litFrom_shiftAxis (litFrom_shiftAxis (litFrom_shiftAxis (litFrom_zero a s))))
  · exact litUpTo_unshiftAxis (litUpTo_unshiftAxis (litUpTo_unshiftAxis (litUpTo_unshiftAxis (litUpTo_zero a s))))

/-- Settles O16: the rules' constants are the complements of the entry planes. -/
theorem shiftMovesTowardIncreasing : Obligations.ShiftMovesTowardIncreasing := by
  refine ⟨by decide, by decide, by decide, fun s => ?_, fun s => ?_⟩
  · have formula (a : Axis) := shiftAxis_eq_and s.ports.sIn a
    exact ⟨exec_of_opValue (formula .x), exec_of_opValue (formula .y), exec_of_opValue (formula .z)⟩
  · exact ⟨fun h => exec_of_sIn h rfl, fun h => exec_of_sIn h rfl, fun h => exec_of_sIn h rfl,
      fun h => ⟨exec_of_sIn h rfl, exec_of_sIn h rfl, exec_of_sIn h rfl⟩⟩

/-- Settles O17: the formula is R141 with the entry plane's complement written out. -/
theorem unshiftMovesTowardDecreasing : Obligations.UnshiftMovesTowardDecreasing := by
  refine ⟨by decide, by decide, by decide, fun s => ?_, fun s => ?_⟩
  · exact ⟨exec_of_opValue rfl, exec_of_opValue rfl, exec_of_opValue rfl⟩
  · exact ⟨fun h => exec_of_sIn h rfl, fun h => exec_of_sIn h rfl, fun h => exec_of_sIn h rfl,
      fun h => ⟨exec_of_sIn h rfl, exec_of_sIn h rfl, exec_of_sIn h rfl⟩⟩

end Sys2Proof.Proofs

/-! # Proofs: the refresh driver (42_refresh_driver.md)

An edge outside ENABLE, one in ENABLE without a tick and one with a tick are said once each (`driverNext_notEnable`,
`driverNext_enable_hold`, `driverNext_enable_tick`), and every pin of a reachable driver is an equation in its state
(`oeN_of_pinsMatch` and its like). Without ticks ENABLE holds, so from a BLANK cycle the driver is at cycle n of its
level after n edges (`driverRun_atCycle_of_noTick`); a tick 35 or more edges after the last one therefore finds it in
ENABLE. -/

namespace Sys2Proof.Proofs

open Sys2Proof.Machine Sys2Proof.Safety Sys2Proof.Laws

/-! ## One step of the machine (R174, R200, R208) -/

theorem exists_step_of_stable {s : State} (stable : Stable s) : ∃ t, step s = .next t := by
  cases hd : decode (nextInputs s).opw with
  | legal i => exact ⟨_, step_legal stable hd (exec_eq_driveResult ..)⟩
  | illegal w => exact ⟨_, step_illegal stable hd⟩

theorem rises_iff {before after : Bool} : rises before after = true ↔ before = false ∧ after = true := by
  simp [rises]

@[simp] theorem rises_self (pin : Bool) : rises pin pin = false := by simp [rises]

@[simp] theorem chainNext_self (d : Driver) (c : Chain) : chainNext d d c = c := by simp [chainNext]

section chainNext
variable {d d' : Driver} (c : Chain)

theorem chainNext_sr_of_noRise (h : ¬ (d.srclk = false ∧ d'.srclk = true)) : (chainNext d d' c).sr = c.sr :=
  if_neg (mt rises_iff.mp h)
theorem chainNext_q_of_noRise (h : ¬ (d.rclk = false ∧ d'.rclk = true)) : (chainNext d d' c).q = c.q :=
  if_neg (mt rises_iff.mp h)
theorem chainNext_q_of_same (same : d'.rclk = d.rclk) : (chainNext d d' c).q = c.q := by simp [chainNext, same]
theorem chainNext_of_low (low : d'.srclk = false) (same : d'.rclk = d.rclk) : chainNext d d' c = c := by
  simp [chainNext, rises, low, same]

end chainNext

/-- With an edge of clk or without, the chain follows the pins. -/
theorem step_chainNext {s t : State} (hs : step s = .next t) : t.chain = chainNext s.driver t.driver s.chain := by
  obtain ⟨_, hd, hc⟩ | ⟨_, hd, hc⟩ := step_driver_cases hs
  · rw [hc, hd, chainNext_self]
  · rw [hc, hd]

/-- SER is held over a rising edge of SRCLK (R185; Log 11). -/
theorem step_ser_of_srclk_rise {s t : State} (hs : step s = .next t)
    (rise : s.driver.srclk = false ∧ t.driver.srclk = true) : t.driver.ser = s.driver.ser := by
  obtain ⟨_, hd, -⟩ | ⟨_, hd, -⟩ := step_driver_cases hs
  · rw [hd]
  · rw [hd] at rise ⊢
    exact ser_held_at_srclk_rise _ _ _ (rises_iff.mpr rise)

/-! ## One edge, arm by arm (R180 to R188) -/

theorem ovrNext_of_notEnable {d : Driver} (h : d.st ≠ .enable) (i : PortInputs) : ovrNext d i = (d.ovr || i.tick) := by
  simp [ovrNext, tickDropped, h]

theorem ovrNext_of_enable {d : Driver} (h : d.st = .enable) (i : PortInputs) : ovrNext d i = d.ovr := by
  simp [ovrNext, tickDropped, h]

section edge
variable (o : ShiftOrder) {d : Driver} {i : PortInputs} (hrst : i.rst = false)
include hrst

/-- An edge outside ENABLE, where a tick sets `ovr`. -/
theorem driverNext_notEnable (h : d.st ≠ .enable) :
    driverNext o d i = { driverArm o d i.tick with cur := curNext d i, ovr := d.ovr || i.tick } := by
  rw [driverNext_run o d hrst, ovrNext_of_notEnable h]

theorem driverNext_enable_hold (h : d.st = .enable) (noTick : i.tick = false) :
    driverNext o d i = { d with cur := curNext d i } := by
  rw [driverNext_run o d hrst, ovrNext_of_enable h, noTick, driverArm_enable_hold o h]

theorem driverNext_enable_tick (h : d.st = .enable) (tick : i.tick = true) :
    driverNext o d i = { enableTick d with cur := curNext d i } := by
  rw [driverNext_run o d hrst, ovrNext_of_enable h, tick, driverArm_enable_tick o h]
  rfl

end edge

theorem driverArm_shift (o : ShiftOrder) {d : Driver} (t : Bool) (h : d.st = .shift) :
    driverArm o d t = shiftArm o d := by simp [driverArm, h]

/-- What no phase of SHIFT writes. -/
theorem shiftArm_frame (o : ShiftOrder) (d : Driver) :
    (shiftArm o d).frm = d.frm ∧ (shiftArm o d).lvl = d.lvl ∧ (shiftArm o d).sl = d.sl ∧
      (shiftArm o d).oeN = d.oeN ∧ (shiftArm o d).cath = d.cath := by
  unfold shiftArm
  split_ifs <;> exact ⟨rfl, rfl, rfl, rfl, rfl⟩

/-- Only a tick changes the level (R186, R198). -/
theorem driverArm_lvl_of_noTick (o : ShiftOrder) (d : Driver) : (driverArm o d false).lvl = d.lvl := by
  obtain ⟨_, e⟩ | ⟨_, _, e⟩ | ⟨_, _, _, e⟩ | ⟨_, _, _, e⟩ | ⟨_, e⟩ | ⟨_, ⟨⟩, _⟩ | ⟨_, _, e⟩ :=
    driverArm_cases o d false <;> rw [e] <;> rfl

/-! ## Into ENABLE and out of it (R195) -/

/-- ENABLE is left into BLANK only, by a tick or by reset. -/
theorem driverNext_st_of_enable (o : ShiftOrder) {d : Driver} (i : PortInputs) (h : d.st = .enable) :
    (driverNext o d i).st = .enable ∨ (driverNext o d i).st = .blank := by
  cases hrst : i.rst with
  | true => exact .inr (by rw [driverNext_rst o d hrst]; rfl)
  | false =>
    cases ht : i.tick with
    | true => exact .inr (by rw [driverNext_enable_tick o hrst h ht]; rfl)
    | false => exact .inl (by rw [driverNext_enable_hold o hrst h ht]; exact h)

/-- ENABLE is entered from LATCH only. -/
theorem st_of_driverNext_enable {o : ShiftOrder} {d : Driver} {i : PortInputs} (h : (driverNext o d i).st = .enable) :
    d.st = .enable ∨ d.st = .latch := by
  cases hrst : i.rst with
  | true => rw [driverNext_rst o d hrst] at h; cases h
  | false =>
    rw [driverNext_run o d hrst] at h
    replace h : (driverArm o d i.tick).st = .enable := h
    obtain ⟨_, e⟩ | ⟨hst, _, e⟩ | ⟨hst, _, _, e⟩ | ⟨_, _, _, e⟩ | ⟨hst, _⟩ | ⟨hst, _⟩ | ⟨hst, _⟩ :=
      driverArm_cases o d i.tick
    · rw [e] at h; cases h
    · rw [e] at h; cases hst.symm.trans h
    · rw [e] at h; cases hst.symm.trans h
    · rw [e] at h; cases h
    · exact .inr hst
    · exact .inl hst
    · exact .inl hst

theorem step_st_of_enable {s t : State} (hs : step s = .next t) (h : s.driver.st = .enable) :
    t.driver.st = .enable ∨ t.driver.st = .blank := by
  obtain ⟨_, hd, -⟩ | ⟨_, hd, -⟩ := step_driver_cases hs <;> rw [hd]
  · exact .inl h
  · exact driverNext_st_of_enable _ _ h

theorem st_of_step_enable {s t : State} (hs : step s = .next t) (h : t.driver.st = .enable) :
    s.driver.st = .enable ∨ s.driver.st = .latch := by
  obtain ⟨_, hd, -⟩ | ⟨_, hd, -⟩ := step_driver_cases hs <;> rw [hd] at h
  · exact .inl h
  · exact st_of_driverNext_enable h

/-! ## The pins as equations in the driver's state (R190, R192) -/

theorem getLsbD_onehot4 (l : BitVec 2) (m : Nat) : (onehot4 l).getLsbD m = decide (m = l.toNat) := by
  have power : onehot4 l = BitVec.twoPow 4 l.toNat := rfl
  have lt : l.toNat < 4 := l.isLt
  simp [power, BitVec.getLsbD_twoPow, lt, eq_comm]

theorem onehot4_ne_zero (l : BitVec 2) : onehot4 l ≠ 0 := fun zero => by
  have bit := getLsbD_onehot4 l l.toNat
  simp [zero] at bit

section pins
variable {o : ShiftOrder} {d : Driver} (h : PinsMatch o d)
include h

theorem ser_of_pinsMatch : d.ser = (decide (d.st = .shift) && serialBit o d.sl d.bc.toNat) := by
  have pin : d.ser = (expectedPins o d).ser := congrArg Pins.ser h.1
  rw [pin, expectedPins]
  cases d.st <;> simp [darkPins]

theorem srclk_of_pinsMatch : d.srclk = d.ph := by
  have pin : d.srclk = (expectedPins o d).srclk := congrArg Pins.srclk h.1
  obtain ⟨-, phase, -⟩ := h
  rw [pin, expectedPins]
  cases hst : d.st <;> simp_all [darkPins]

theorem rclk_of_pinsMatch : d.rclk = decide (d.st = .latch) := by
  have pin : d.rclk = (expectedPins o d).rclk := congrArg Pins.rclk h.1
  rw [pin, expectedPins]
  cases d.st <;> rfl

theorem oeN_of_pinsMatch : d.oeN = decide (d.st ≠ .enable) := by
  have pin : d.oeN = (expectedPins o d).oeN := congrArg Pins.oeN h.1
  rw [pin, expectedPins]
  cases d.st <;> rfl

theorem cath_of_pinsMatch : d.cath = if d.st = .enable then onehot4 d.lvl else 0 := by
  have pin : d.cath = (expectedPins o d).cath := congrArg Pins.cath h.1
  rw [pin, expectedPins]
  cases d.st <;> rfl

theorem ph_of_pinsMatch (notShift : d.st ≠ .shift) : d.ph = false := by
  obtain ⟨-, phase, -⟩ := h
  simpa using mt phase notShift

end pins

/-! ## Every reachable state -/

theorem displayInv_of_reachable {s : State} (h : Reachable s) : DisplayInv s :=
  reachable_of_step (fun _ => displayInv_of_reset) stepKeepsTheDisplayInvariant h

theorem pinsMatch_of_reachable {s : State} (h : Reachable s) : PinsMatch s.build.shiftOrder s.driver :=
  (displayInv_of_reachable h).1

theorem oeN_eq_false_iff {s : State} (h : Reachable s) : s.driver.oeN = false ↔ s.driver.st = .enable := by
  simp [oeN_of_pinsMatch (pinsMatch_of_reachable h)]

/-- A step into SHIFT or LATCH is dark before and after: ENABLE is left into BLANK. -/
theorem dark_of_step {s t : State} (h : Reachable s) (hs : step s = .next t)
    (busy : t.driver.st = .shift ∨ t.driver.st = .latch) : s.driver.oeN = true ∧ t.driver.oeN = true := by
  have before : s.driver.st ≠ .enable := fun hst => by
    rcases step_st_of_enable hs hst with ht | ht <;> simp [ht] at busy
  have after : t.driver.st ≠ .enable := fun ht => by simp [ht] at busy
  exact ⟨by simpa [before] using oeN_eq_false_iff h, by simpa [after] using oeN_eq_false_iff (.step s t h hs)⟩

/-! ## Runs without reset or ticks, edge by edge -/

theorem noReset_snoc {is : List PortInputs} {i : PortInputs} :
    NoReset (is ++ [i]) ↔ NoReset is ∧ i.rst = false :=
  List.forall_mem_append.trans (and_congr_right' List.forall_mem_singleton)

theorem noTick_snoc {is : List PortInputs} {i : PortInputs} : NoTick (is ++ [i]) ↔ NoTick is ∧ i.tick = false :=
  List.forall_mem_append.trans (and_congr_right' List.forall_mem_singleton)

theorem noReset_of_prefix {pre is : List PortInputs} (noReset : NoReset is) (hpre : pre <+: is) : NoReset pre :=
  fun i hi => noReset i (hpre.subset hi)

/-! ## ENABLE without ticks (R206) -/

theorem driverRun_enable_hold (o : ShiftOrder) {d : Driver} {is : List PortInputs} (hst : d.st = .enable)
    (noReset : NoReset is) (noTick : NoTick is) : driverRun o d is = { d with cur := (driverRun o d is).cur } := by
  induction is using List.reverseRecOn with
  | nil => rfl
  | append_singleton is i ih =>
    obtain ⟨noReset, hrst⟩ := noReset_snoc.mp noReset
    obtain ⟨noTick, htick⟩ := noTick_snoc.mp noTick
    have held := ih noReset noTick
    have enabled : (driverRun o d is).st = .enable := (congrArg Driver.st held).trans hst
    rw [driverRun_snoc, driverNext_enable_hold o hrst enabled htick, held]

/-! ## A level without ticks from its cycle 34 on (R190) -/

theorem timelineRow_enable (o : ShiftOrder) (sl : Slice) (lvl : BitVec 2) {n : Nat} (h : 34 ≤ n) :
    timelineRow o sl lvl n = timelineRow o sl lvl 34 := by
  have past : ¬ n ≤ 32 ∧ n ≠ 33 := by omega
  simp [timelineRow, past]

theorem timelineRow_st_eq_enable_iff (o : ShiftOrder) (sl : Slice) (lvl : BitVec 2) (n : Nat) :
    (timelineRow o sl lvl n).st = .enable ↔ 34 ≤ n := by
  unfold timelineRow
  split_ifs <;> simp <;> omega

theorem timelineRow_oeN_iff (o : ShiftOrder) (sl : Slice) (lvl : BitVec 2) (n : Nat) :
    (timelineRow o sl lvl n).pins.oeN = true ↔ n < 34 := by
  unfold timelineRow
  split_ifs <;> simp [darkPins] <;> omega

/-- `driverRun_atCycle` for runs of any length: at cycle 34 the driver is in ENABLE, which holds. -/
theorem driverRun_atCycle_of_noTick {o : ShiftOrder} {d : Driver} {is : List PortInputs} (hst : d.st = .blank)
    (noReset : NoReset is) (noTick : NoTick (is.drop 34)) (pos : 1 ≤ is.length) :
    AtCycle o (blankSlice d) d.lvl is.length (driverRun o d is) := by
  rcases Nat.le_total is.length 34 with le | ge
  · exact driverRun_atCycle hst noReset pos le
  · have first : (is.take 34).length = 34 := List.length_take_of_le ge
    have entered := driverRun_atCycle (o := o) hst (is := is.take 34) (fun i hi => noReset i (List.mem_of_mem_take hi))
      (by omega) first.le
    rw [first] at entered
    have enabled : (driverRun o d (is.take 34)).st = .enable := congrArg Row.st entered.1
    have held := driverRun_enable_hold o enabled (fun i hi => noReset i (List.mem_of_mem_drop hi)) noTick
    rw [← driverRun_append, List.take_append_drop] at held
    rw [held, AtCycle, timelineRow_enable _ _ _ ge]
    exact entered

/-! ## Spaced ticks (R198, R272) -/

section tickAt
variable (a b : List PortInputs) (i : PortInputs)

theorem tickAt_append_left {j : Nat} (h : j < a.length) : tickAt (a ++ b) j = tickAt a j := by
  simp [tickAt, List.getElem?_append_left h]

theorem tickAt_length : tickAt (a ++ i :: b) a.length = i.tick := by simp [tickAt]

end tickAt

theorem ticksApart_of_prefix {n : Nat} {pre is : List PortInputs} (h : TicksApart n is) (hpre : pre <+: is) :
    TicksApart n pre := by
  obtain ⟨rest, rfl⟩ := hpre
  intro k hk j hj tj tk
  rw [← tickAt_append_left pre rest (by omega)] at tj tk
  exact h k (by simp; omega) j hj tj tk

/-- Where ticks are `n` apart, the edges between two of them are at least `n - 1`. -/
theorem length_between_ticks {n : Nat} {a b : List PortInputs} {i j : PortInputs}
    (apart : TicksApart n (a ++ j :: b ++ [i])) (hj : j.tick = true) (hi : i.tick = true) : n ≤ b.length + 1 := by
  have first : tickAt (a ++ j :: b ++ [i]) a.length = true := by
    rw [List.append_assoc, List.cons_append, tickAt_length, hj]
  have second : tickAt (a ++ j :: b ++ [i]) (a ++ j :: b).length = true := by rw [tickAt_length, hi]
  have := apart _ (by simp) _ (by simp) first second
  simp at this
  omega

/-- No tick came so far and the driver was in ENABLE, or the last tick took it to BLANK. -/
def LastTickAccepted (o : ShiftOrder) (d : Driver) (is : List PortInputs) : Prop :=
  (d.st = .enable ∧ NoTick is) ∨
    ∃ a j b, is = a ++ j :: b ∧ j.tick = true ∧ NoTick b ∧ (driverRun o d (a ++ [j])).st = .blank

section SpacedTicks
variable {o : ShiftOrder} {d : Driver} {is : List PortInputs} {i : PortInputs}

/-- A tick 35 or more edges after the last one finds the driver in ENABLE. -/
theorem enable_of_lastTickAccepted (h : LastTickAccepted o d is) (noReset : NoReset is)
    (apart : TicksApart 35 (is ++ [i])) (tick : i.tick = true) : (driverRun o d is).st = .enable := by
  obtain ⟨hst, noTick⟩ | ⟨a, j, b, rfl, hj, noTick, hst⟩ := h
  · exact (congrArg Driver.st (driverRun_enable_hold o hst noReset noTick)).trans hst
  · have far : 34 ≤ b.length := by have := length_between_ticks apart hj tick; omega
    obtain ⟨row, -⟩ := driverRun_atCycle_of_noTick (o := o) hst (is := b) (fun k hk => noReset k (by simp [hk]))
      (fun k hk => noTick k (List.mem_of_mem_drop hk)) (by omega)
    rw [← driverRun_append, List.append_assoc, List.singleton_append] at row
    exact (congrArg Row.st row).trans ((timelineRow_st_eq_enable_iff ..).mpr far)

theorem lastTickAccepted_of_ticksApart (hst : d.st = .enable) (noReset : NoReset is) (apart : TicksApart 35 is) :
    LastTickAccepted o d is := by
  induction is using List.reverseRecOn with
  | nil => exact .inl ⟨hst, List.forall_mem_nil _⟩
  | append_singleton is i ih =>
    obtain ⟨noReset, hrst⟩ := noReset_snoc.mp noReset
    have last := ih noReset (ticksApart_of_prefix apart (List.prefix_append is [i]))
    cases tick : i.tick with
    | true =>
      have enabled := enable_of_lastTickAccepted last noReset apart tick
      refine .inr ⟨is, i, [], rfl, tick, List.forall_mem_nil _, ?_⟩
      rw [driverRun_snoc, driverNext_enable_tick o hrst enabled tick]
      rfl
    | false =>
      obtain ⟨_, noTick⟩ | ⟨a, j, b, rfl, hj, noTick, hblank⟩ := last
      · exact .inl ⟨hst, noTick_snoc.mpr ⟨noTick, tick⟩⟩
      · exact .inr ⟨a, j, b ++ [i], by simp, hj, noTick_snoc.mpr ⟨noTick, tick⟩, hblank⟩

/-- Every tick of the run finds the driver in ENABLE. -/
def TicksAccepted (o : ShiftOrder) (d : Driver) (is : List PortInputs) : Prop :=
  ∀ pre i, pre ++ [i] <+: is → i.tick = true → (driverRun o d pre).st = .enable

theorem ticksAccepted_of_ticksApart (hst : d.st = .enable) (noReset : NoReset is) (apart : TicksApart 35 is) :
    TicksAccepted o d is := by
  intro pre i hpre tick
  have apart := ticksApart_of_prefix apart hpre
  have before := List.prefix_append pre [i]
  have noReset := noReset_of_prefix noReset (before.trans hpre)
  have last := lastTickAccepted_of_ticksApart (o := o) hst noReset (ticksApart_of_prefix apart before)
  exact enable_of_lastTickAccepted last noReset apart tick

/-- Accepted ticks set no `ovr` and are counted by the level. -/
theorem driverRun_of_ticksAccepted (noReset : NoReset is) (accepted : TicksAccepted o d is) :
    (driverRun o d is).ovr = d.ovr ∧
      (driverRun o d is).lvl = d.lvl + BitVec.ofNat 2 (is.filter fun i => i.tick).length := by
  induction is using List.reverseRecOn with
  | nil => simp
  | append_singleton is i ih =>
    obtain ⟨noReset, hrst⟩ := noReset_snoc.mp noReset
    obtain ⟨ovr, lvl⟩ := ih noReset fun pre j hpre => accepted pre j (hpre.trans (List.prefix_append is [i]))
    rw [driverRun_snoc, List.filter_append]
    cases tick : i.tick with
    | true =>
      rw [driverNext_enable_tick o hrst (accepted is i List.prefix_rfl tick) tick]
      exact ⟨ovr, by simp [enableTick, lvl, tick, BitVec.ofNat_add, BitVec.add_assoc]⟩
    | false =>
      rw [driverNext_run o _ hrst, tick]
      exact ⟨by simp [ovrNext, tickDropped, tick, ovr], by simp [driverArm_lvl_of_noTick, tick, lvl]⟩

end SpacedTicks

/-! ## Rates (R204) -/

/-- The level-switch rate is at least `r` exactly when `r` levels fit into a second. -/
theorem le_levelSwitchRate_iff (r f : Nat) {T : Nat} (pos : 0 < T) : r ≤ levelSwitchRate f T ↔ r * T ≤ f := by
  rw [levelSwitchRate, le_div_iff₀ (by exact_mod_cast pos)]
  exact_mod_cast Iff.rfl

/-- A refresh is a level four times as long. -/
theorem refreshRate_eq_levelSwitchRate (f T : Nat) : refreshRate f T = levelSwitchRate f (4 * T) := rfl

/-! ## The obligations -/

/-- Settles O47: the pins' part of the display's invariant, which reset establishes and every step keeps. -/
theorem reachablePinsAreTheRow : Obligations.ReachablePinsAreTheRow := fun s h => by
  obtain ⟨pins, phase, count⟩ := pinsMatch_of_reachable h
  exact ⟨pins, phase, Nat.le_of_lt_succ s.driver.bc.isLt, count⟩

/-- Settles O48: CATH is `onehot4 lvl` in ENABLE and 0 elsewhere, and `onehot4` has one bit. -/
theorem atMostOneCathode : Obligations.AtMostOneCathode := by
  intro s h
  rw [cath_of_pinsMatch (pinsMatch_of_reachable h)]
  by_cases hst : s.driver.st = .enable
  · rw [if_pos hst]
    refine ⟨.inr rfl, iff_of_true (onehot4_ne_zero _) hst, fun l m hl hm => ?_⟩
    rw [getLsbD_onehot4, decide_eq_true_iff] at hl hm
    exact hl.trans hm.symm
  · rw [if_neg hst]
    exact ⟨.inl rfl, iff_of_false (fun ne => ne rfl) hst, fun l m hl => by simp at hl⟩

/-- Settles O49: SRCLK is high in SHIFT only and RCLK in LATCH only, and ENABLE leads to neither. -/
theorem blankingCoversTheChain : Obligations.BlankingCoversTheChain := by
  refine fun s h => ⟨oeN_eq_false_iff h, fun t hs => ?_⟩
  have pins := pinsMatch_of_reachable (.step s t h hs)
  refine ⟨fun rise => dark_of_step h hs (.inl ?_), fun rise => dark_of_step h hs (.inr ?_), fun hst ht => ?_,
    st_of_step_enable hs⟩
  · obtain ⟨-, high⟩ := rises_iff.mp rise
    rw [srclk_of_pinsMatch pins] at high
    exact not_imp_comm.mp (ph_of_pinsMatch pins) (by simp [high])
  · obtain ⟨-, high⟩ := rises_iff.mp rise
    simpa [rclk_of_pinsMatch pins] using high
  · have blank : t.driver.st = .blank := (step_st_of_enable hs hst).resolve_left ht
    exact ⟨blank, by simp [oeN_of_pinsMatch pins, blank], by simp [cath_of_pinsMatch pins, blank]⟩

/-- Settles O50: once latched `q` holds the sixteen bits sent, and a bit of the slice is an LED of the held frame. -/
theorem displayShowsTheHeldFrame : Obligations.DisplayShowsTheHeldFrame := by
  intro s h shown
  obtain ⟨pins, held, chain⟩ := displayInv_of_reachable h
  have sent {j : Nat} (hj : j < 16) : order s.build.shiftOrder (15 - j) = shown j ∧ shown j < 16 := by
    cases ho : s.build.shiftOrder <;> simp only [shown, ho, order, true_and] <;> omega
  have latched (hst : s.driver.st = .latch ∨ s.driver.st = .enable) :
      s.driver.sl = levelSlice s.driver.frm s.driver.lvl.toNat ∧
        ∀ j, j < 16 → s.chain.q.getLsbD j = s.driver.sl.getLsbD (shown j) := by
    refine ⟨held (by rcases hst with hst | hst <;> simp [hst]), fun j hj => ?_⟩
    rw [(chainFollows_latched_iff hst).mp chain j hj, serialBit, (sent hj).1]
  refine ⟨latched, fun hst c l hc hl => ?_, fun hst c l => by simp [lit, oeN_of_pinsMatch pins, hst]⟩
  obtain ⟨slice, q⟩ := latched (.inr hst)
  have led := levelSlice_bit s.driver.frm s.driver.lvl.isLt (sent hc).2
  rw [lit, oeN_of_pinsMatch pins, cath_of_pinsMatch pins, if_pos hst, getLsbD_onehot4, q c hc, slice, led]
  by_cases active : l = s.driver.lvl.toNat <;> simp [hst, active]

/-- Settles O51: `AtCycle` gives the row, and the row's number says whether the level is lit. -/
theorem levelTimeline : Obligations.LevelTimeline := by
  refine ⟨fun o d is pins hst noReset noTick => ⟨?_, fun nonempty => ?_⟩, fun o d i pins hst hrst tick => ?_⟩
  · obtain ⟨row, -⟩ := pins
    rw [row, expectedPins, hst]
  · obtain ⟨row, lvl, sl⟩ :=
      driverRun_atCycle_of_noTick (o := o) hst noReset noTick (List.length_pos_iff.mpr nonempty)
    have st : (driverRun o d is).st = (timelineRow o (blankSlice d) d.lvl is.length).st := congrArg Row.st row
    have oeN : (driverRun o d is).oeN = (timelineRow o (blankSlice d) d.lvl is.length).pins.oeN :=
      congrArg (fun r => r.pins.oeN) row
    exact ⟨row, lvl, sl, st ▸ timelineRow_st_eq_enable_iff .., oeN ▸ timelineRow_oeN_iff ..⟩
  · have next : PinsMatch o (driverNext o d i) := by
      rw [driverNext_run o d hrst]
      exact pinsMatch_driverArm i.tick pins
    have blank := driverNext_enable_tick o hrst hst tick
    have st : (driverNext o d i).st = .blank := by rw [blank]; rfl
    obtain ⟨-, -, count⟩ := pins
    exact ⟨next, st, by rw [blank]; exact count (.inr hst), ph_of_pinsMatch next (by simp [st])⟩

/-- Settles O58: an edge without a tick holds ENABLE. -/
theorem withoutTicksEnableHolds : Obligations.WithoutTicksEnableHolds := fun o _ _ => driverRun_enable_hold o

/-- Settles O56: each tick finds ENABLE, since the last one is at least a level's dark time ago. -/
theorem spacedTicksAreAllAccepted : Obligations.SpacedTicksAreAllAccepted := by
  intro o d is hst noReset apart
  have accepted := ticksAccepted_of_ticksApart (o := o) hst noReset apart
  refine ⟨fun pre i hpre tick => ?_, driverRun_of_ticksAccepted noReset accepted⟩
  have enabled := accepted pre i hpre tick
  have next := driverNext_enable_tick o (noReset i (hpre.subset (by simp))) enabled tick
  rw [driverRun_snoc, next]
  exact ⟨enabled, rfl, rfl⟩

/-- Settles O8: a stable step runs or signals its word, and only the unstable edge is refused. -/
theorem stepStopsOnlyOnUnstableInputs : Obligations.StepStopsOnlyOnUnstableInputs := fun _ =>
  ⟨exists_step_of_stable, fun hclk unstable => step_unsynchronised (by simp [unsynchronised, hclk, unstable])⟩

/-- Settles O37: the BLANK arm, with the first serial bit written out for each order. -/
theorem blankSelectsTheLevelSlice : Obligations.BlankSelectsTheLevelSlice := by
  intro s i hi hrst hst
  obtain ⟨t, ht, hd⟩ := exists_step_of_edge hi
  refine ⟨t, ht, ?_⟩
  rw [hd, driverNext_notEnable _ hrst (by simp [hst]), driverArm_blank _ _ hst]
  cases s.build.shiftOrder <;> rfl

/-- Settles O38: the three arms of SHIFT, what their clock pins do to the chain, and the pins of a reachable state. -/
theorem shiftPhases : Obligations.ShiftPhases := by
  intro s i hi hrst hst
  obtain ⟨t, ht, hd⟩ := exists_step_of_edge hi
  have hc := step_chainNext ht
  rw [driverNext_notEnable _ hrst (by simp [hst])] at hd
  obtain ⟨frm, lvl, sl, oeN, cath⟩ := shiftArm_frame s.build.shiftOrder s.driver
  rw [← driverArm_shift _ i.tick hst] at frm lvl sl oeN cath
  refine ⟨t, ht, ?_⟩
  rw [hc, hd]
  refine ⟨rfl, rfl, frm, lvl, sl, oeN, cath, fun hph => ?_, fun hph hbc => ?_, fun hph hbc => ?_, fun reachable => ?_⟩
  · rw [driverArm_rise _ _ hst hph]
    exact ⟨hst, rfl, rfl, rfl, rfl, rfl, chainNext_q_of_same _ rfl, fun low => chainNext_sr_of_rise _ low rfl⟩
  · have more : s.driver.bc ≠ 15 := by bv_omega
    rw [driverArm_nextBit _ _ hst hph more]
    have next : (s.driver.bc + 1).toNat = s.driver.bc.toNat + 1 := by bv_omega
    have ser : (shiftNextBit s.build.shiftOrder s.driver).ser =
        s.driver.sl.getLsbD (order s.build.shiftOrder (s.driver.bc.toNat + 1)) := next ▸ rfl
    refine ⟨hst, rfl, rfl, ser.trans ?_, rfl, rfl, chainNext_of_low _ rfl rfl⟩
    cases s.build.shiftOrder <;> rfl
  · rw [driverArm_toLatch _ _ hst hph hbc]
    exact ⟨rfl, hbc, rfl, rfl, rfl, rfl, chainNext_sr_of_low _ rfl, fun low => chainNext_q_of_rise _ low rfl⟩
  · have pins := pinsMatch_of_reachable reachable
    have rclk : s.driver.rclk = false := by simp [rclk_of_pinsMatch pins, hst]
    exact ⟨rclk, srclk_of_pinsMatch pins, by simp [ser_of_pinsMatch pins, hst, serialBit]⟩

/-- Settles O39: the LATCH arm. -/
theorem latchLightsTheLevel : Obligations.LatchLightsTheLevel := by
  intro s i hi hrst hst
  obtain ⟨t, ht, hd⟩ := exists_step_of_edge hi
  refine ⟨t, ht, ?_⟩
  rw [hd, driverNext_notEnable _ hrst (by simp [hst]), driverArm_latch _ _ hst]
  rfl

/-- Settles O40: the two arms of ENABLE, in which no tick is dropped. -/
theorem enableHoldsUntilTick : Obligations.EnableHoldsUntilTick := by
  intro s i hi hrst hst
  obtain ⟨t, ht, hd⟩ := exists_step_of_edge hi
  refine ⟨t, ht, fun noTick => ?_, fun tick => ?_⟩
  · rw [hd, driverNext_enable_hold _ hrst hst noTick]
    rfl
  · rw [hd, driverNext_enable_tick _ hrst hst tick]
    exact ⟨BitVec.toNat_add .., rfl⟩

/-- Settles O43: `step_driver` and `step_chain`, for the two values of clk. -/
theorem noEdgeNoChange : Obligations.NoEdgeNoChange := by
  intro s t hs
  obtain ⟨build, -⟩ := step_frame hs
  refine ⟨build, fun low => ?_, fun high => ?_⟩
  · rw [step_driver hs, step_chain hs, low]
    exact ⟨rfl, rfl⟩
  · rw [step_driver hs, if_pos high]

/-- Settles O60: the chain follows the pins at every step, and SER is held over a rising edge of SRCLK. -/
theorem referenceChainTransition : Obligations.ReferenceChainTransition := by
  intro s t hs
  have chain := step_chainNext hs
  refine ⟨fun rise => ⟨?_, step_ser_of_srclk_rise hs rise⟩, fun still => ?_, fun rise => ?_, fun still => ?_,
    fun j l => ?_⟩
  · rw [chain, chainNext_sr_of_rise _ rise.1 rise.2]
    rfl
  · rw [chain, chainNext_sr_of_noRise _ still]
  · rw [chain, chainNext_q_of_rise _ rise.1 rise.2]
  · rw [chain, chainNext_q_of_noRise _ still]
  · simp [lit, and_assoc]

/-- Settles O59: the refresh rate is the level-switch rate of a level four times as long. -/
theorem rateBound : Obligations.RateBound := by
  have dark : darkCycles = 34 := rfl
  refine ⟨dark, rfl, fun T least => ?_, fun f T pos => ⟨?_, ?_⟩, fun f T least target => ?_⟩
  · simp only [minTickSpacing, dark] at least
    rw [litCycles, dark]
    exact ⟨by omega, by omega, rfl⟩
  · exact le_levelSwitchRate_iff 400 f pos
  · have whole : 100 * (4 * T) = 400 * T := by omega
    rw [refreshRate_eq_levelSwitchRate, meetsRateTarget, targetSwitchRate, ← whole]
    exact le_levelSwitchRate_iff 100 f (Nat.mul_pos (by decide) pos)
  · simp only [meetsRateTarget, targetSwitchRate, minTickSpacing, dark] at least target
    omega

end Sys2Proof.Proofs

/-! # Proofs: the overrun flag and simultaneous inputs (60_exceptions.md)

What an edge without reset makes of `ovr` is said once, as an equation (`driverNext_ovr`), and so is what it makes of all
registers but `cur` and `ovr` (`driverNext_arm`). -/

namespace Sys2Proof.Proofs

open Sys2Proof.Machine Sys2Proof.Safety Sys2Proof.Laws

/-! ## One edge without reset (R234, R238) -/

/-- A tick is dropped when it comes outside ENABLE (R176). -/
theorem tickDropped_iff {d : Driver} {i : PortInputs} : tickDropped d i = true ↔ i.tick = true ∧ d.st ≠ .enable := by
  simp [tickDropped]

/-- Writing `cur` and `ovr` their own values changes nothing. -/
theorem with_cur_ovr_self {d : Driver} {c : LedState} {v : Bool} (hcur : d.cur = c) (hovr : d.ovr = v) :
    { d with cur := c, ovr := v } = d := by
  rw [← hcur, ← hovr]

section edge
variable (o : ShiftOrder) (d : Driver) {i : PortInputs} (hrst : i.rst = false)
include hrst

theorem driverNext_ovr : (driverNext o d i).ovr = (d.ovr || tickDropped d i) := by
  rw [driverNext_run o d hrst]
  rfl

/-- Apart from `cur` and `ovr` an edge is the arm of the present state. -/
theorem driverNext_arm : { driverNext o d i with cur := d.cur, ovr := d.ovr } = driverArm o d i.tick := by
  rw [driverNext_run o d hrst]
  exact with_cur_ovr_self (driverArm_cur o d i.tick) (driverArm_ovr o d i.tick)

/-- A dropped tick does nothing but set `ovr`. -/
theorem driverNext_of_tickDropped (dropped : tickDropped d i = true) :
    driverNext o d i = { driverNext o d { i with tick := false } with ovr := true } := by
  obtain ⟨tick, hst⟩ := tickDropped_iff.mp dropped
  rw [driverNext_notEnable o hrst hst, driverNext_notEnable o (i := { i with tick := false }) hrst hst,
    driverArm_tick_irrelevant o hst i.tick false, tick, Bool.or_true]
  rfl

end edge

/-- No step but a reset edge takes `ovr` from 1 to 0. -/
theorem reset_edge_of_step_clears_ovr {s t : State} (hs : step s = .next t) (set : s.driver.ovr = true)
    (clear : t.driver.ovr = false) : (nextInputs s).clk = true ∧ (nextInputs s).rst = true := by
  obtain ⟨_, hd, -⟩ | ⟨hclk, hd, -⟩ := step_driver_cases hs
  · rw [hd, set] at clear
    cases clear
  · refine ⟨hclk, Bool.of_not_eq_false fun hrst => ?_⟩
    rw [hd, driverNext_ovr _ _ hrst, set, Bool.true_or] at clear
    cases clear

/-! ## The obligations -/

/-- Settles O41: `driverNext_ovr`, for a tick that is dropped and for none. -/
theorem overrunFlagIsSticky : Obligations.OverrunFlagIsSticky := by
  refine ⟨fun s i hi hrst => ?_, fun o d i hrst tick hst => ?_, fun s t => reset_edge_of_step_clears_ovr⟩
  · obtain ⟨t, ht, hd⟩ := exists_step_of_edge hi
    have ovr := driverNext_ovr s.build.shiftOrder s.driver hrst
    rw [← hd] at ovr
    refine ⟨t, ht, fun tick hst => ?_, fun kept => ?_⟩
    · rw [ovr, tickDropped_iff.mpr ⟨tick, hst⟩, Bool.or_true]
    · rw [ovr, Bool.eq_false_of_not_eq_true (mt tickDropped_iff.mp kept), Bool.or_false]
  · exact driverNext_of_tickDropped o d hrst (tickDropped_iff.mpr ⟨tick, hst⟩)

/-- Settles O42: `driverNext` register by register, and a level-0 sample reads `cur` from before the edge. -/
theorem simultaneousInputs : Obligations.SimultaneousInputs := by
  intro s i hi
  obtain ⟨t, ht, hd⟩ := exists_step_of_edge hi
  refine ⟨t, ht, ?_⟩
  rw [hd]
  refine ⟨driverNext_rst _ _, fun hrst => ?_, fun hrst hst hlvl hwe => ?_⟩
  · exact ⟨driverNext_cur _ _ hrst, driverNext_ovr _ _ hrst, driverNext_arm _ _ hrst⟩
  · exact ⟨(driverNext_frm _ _ hrst).trans (if_pos ⟨hst, hlvl⟩), (driverNext_cur _ _ hrst).trans (if_pos hwe)⟩

end Sys2Proof.Proofs

/-! # Proofs: reset and timing hazards (70_reset_and_hazards.md)

Reset and an accepted tick both leave the driver in BLANK, so both statements about the 34 edges that follow rest on one
description of a level that starts there: which edge leads to ENABLE (`driverRun_st_eq_enable_iff`), what is lit then
(`driverRun_lit`), and what becomes of `frm` and `ovr` on the way (`driverRun_frm`, `driverRun_ovr`). -/

namespace Sys2Proof.Proofs

open Sys2Proof.Machine Sys2Proof.Safety Sys2Proof.Laws

/-! ## An accepted tick (R186) -/

/-- An accepted tick ends the level and sets no `ovr`. -/
theorem driverNext_of_tickAccepted (o : ShiftOrder) {d : Driver} {i : PortInputs} (hst : d.st = .enable)
    (hrst : i.rst = false) (tick : i.tick = true) :
    (driverNext o d i).st = .blank ∧ (driverNext o d i).lvl = d.lvl + 1 ∧ (driverNext o d i).ovr = d.ovr := by
  rw [driverNext_enable_tick o hrst hst tick]
  exact ⟨rfl, rfl, rfl⟩

/-! ## The 34 edges from BLANK to ENABLE (R190, R261) -/

theorem timelineRow_st_ne_blank (o : ShiftOrder) (sl : Slice) (lvl : BitVec 2) (n : Nat) :
    (timelineRow o sl lvl n).st ≠ .blank := by
  unfold timelineRow
  split_ifs <;> simp

section level
variable {o : ShiftOrder} {d : Driver} {is : List PortInputs} (hst : d.st = .blank) (noReset : NoReset is)
include hst noReset

theorem driverRun_st (pos : 1 ≤ is.length) (le : is.length ≤ 34) :
    (driverRun o d is).st = (timelineRow o (blankSlice d) d.lvl is.length).st := by
  obtain ⟨row, -⟩ := driverRun_atCycle (o := o) hst noReset pos le
  exact congrArg Row.st row

theorem driverRun_st_ne_blank (pos : 1 ≤ is.length) (le : is.length ≤ 34) : (driverRun o d is).st ≠ .blank := by
  rw [driverRun_st hst noReset pos le]
  exact timelineRow_st_ne_blank _ _ _ _

theorem driverRun_st_eq_enable_iff (le : is.length ≤ 34) : (driverRun o d is).st = .enable ↔ is.length = 34 := by
  rcases Nat.eq_zero_or_pos is.length with empty | pos
  · rw [List.length_eq_zero_iff.mp empty, driverRun_nil, hst]
    simp
  · rw [driverRun_st hst noReset pos le, timelineRow_st_eq_enable_iff]
    omega

/-- After the 34th edge the level that BLANK selected is lit (R190). -/
theorem driverRun_lit (len : is.length = 34) :
    (driverRun o d is).lvl = d.lvl ∧ (driverRun o d is).sl = blankSlice d ∧ (driverRun o d is).oeN = false ∧
      (driverRun o d is).cath = onehot4 d.lvl := by
  obtain ⟨row, lvl, sl⟩ := driverRun_atCycle (o := o) hst noReset (by omega) len.le
  rw [len] at row
  exact ⟨lvl, sl, congrArg (fun r => r.pins.oeN) row, congrArg (fun r => r.pins.cath) row⟩

/-- `frm` is sampled at the first edge only (R54), so no later write reaches it. -/
theorem driverRun_frm (pos : 1 ≤ is.length) (le : is.length ≤ 34) : (driverRun o d is).frm = blankFrame d := by
  induction is using List.reverseRecOn with
  | nil => simp at pos
  | append_singleton is i ih =>
    obtain ⟨noReset, hrst⟩ := noReset_snoc.mp noReset
    have short : is.length ≤ 34 := by simp at le; omega
    rw [driverRun_snoc, driverNext_frm o _ hrst]
    rcases Nat.eq_zero_or_pos is.length with empty | nonempty
    · rw [List.length_eq_zero_iff.mp empty, driverRun_nil]
      simp [hst, blankFrame]
    · rw [if_neg fun ⟨blank, _⟩ => driverRun_st_ne_blank hst noReset nonempty short blank]
      exact ih noReset nonempty short

/-- Every tick before ENABLE is dropped and sets `ovr` (R264). -/
theorem driverRun_ovr (le : is.length ≤ 34) : (driverRun o d is).ovr = (d.ovr || is.any PortInputs.tick) := by
  induction is using List.reverseRecOn with
  | nil => simp
  | append_singleton is i ih =>
    obtain ⟨noReset, hrst⟩ := noReset_snoc.mp noReset
    have short : is.length < 34 := by simp at le; omega
    have notEnable : (driverRun o d is).st ≠ .enable :=
      mt (driverRun_st_eq_enable_iff hst noReset short.le).mp short.ne
    rw [driverRun_snoc, driverNext_notEnable o hrst notEnable, ih noReset short.le]
    simp [Bool.or_assoc]

end level

/-! ## The obligations -/

/-- Settles O33: a reset edge leaves `Driver.reset`, whose registers are R41's. -/
theorem resetEdgeLoadsEveryRegister : Obligations.ResetEdgeLoadsEveryRegister := by
  intro s i hi hrst
  obtain ⟨t, ht, hd⟩ := exists_step_of_edge hi
  rw [driverNext_rst _ _ hrst] at hd
  refine ⟨t, ht, ?_⟩
  rw [hd]
  exact ⟨rfl, rfl, rfl, rfl, rfl, rfl, rfl, rfl, rfl, rfl, rfl, rfl, rfl⟩

/-- Settles O55: reset leaves BLANK of level 0 with an empty frame, from which the level takes its 34 edges. -/
theorem startAfterReset : Obligations.StartAfterReset := by
  intro o is noReset len d
  have blank : Driver.reset.st = .blank := rfl
  have enabled : d.st = .enable := (driverRun_st_eq_enable_iff blank noReset len.le).mpr len
  obtain ⟨lvl, sl, oeN, cath⟩ := driverRun_lit (o := o) blank noReset len
  have frm : d.frm = 0 := driverRun_frm blank noReset (by omega) len.le
  have empty : blankSlice Driver.reset = 0 := levelSlice_zero 0
  refine ⟨⟨enabled, lvl, frm, sl.trans empty, oeN, cath⟩, fun pre hpre short => ?_, ?_, fun i hrst tick => ?_⟩
  · exact mt (driverRun_st_eq_enable_iff blank (noReset_of_prefix noReset hpre) short.le).mp short.ne
  · exact (driverRun_ovr blank noReset len.le).trans (Bool.false_or _)
  · obtain ⟨st, next, ovr⟩ := driverNext_of_tickAccepted o enabled hrst tick
    exact ⟨st, by rw [next, lvl]; rfl, ovr⟩

/-- Settles O57: the accepted tick leaves BLANK, so the next tick finds ENABLE only after 34 edges more. -/
theorem earlyTickIsDropped : Obligations.EarlyTickIsDropped := by
  intro o d i j is hst hirst hitick hjrst hjtick noReset e
  obtain ⟨blank, lvl, -⟩ := driverNext_of_tickAccepted o hst hirst hitick
  refine ⟨fun short => ?_, fun len => ?_⟩
  · have notEnable : e.st ≠ .enable := mt (driverRun_st_eq_enable_iff blank noReset short.le).mp short.ne
    exact ⟨notEnable, driverNext_of_tickDropped o e hjrst (tickDropped_iff.mpr ⟨hjtick, notEnable⟩)⟩
  · have enabled : e.st = .enable := (driverRun_st_eq_enable_iff blank noReset len.le).mpr len
    obtain ⟨kept, -⟩ := driverRun_lit (o := o) blank noReset len
    have level : e.lvl = d.lvl + 1 := kept.trans lvl
    obtain ⟨-, next, ovr⟩ := driverNext_of_tickAccepted o enabled hjrst hjtick
    exact ⟨enabled, level, by rw [next, level, BitVec.add_assoc]; rfl, ovr⟩

end Sys2Proof.Proofs
